-- ==== Sys2Proof/Word.lean ====
section
/-! DEFINITION. The value types of the word format (30_encoding.md R49, R53, R71, R73): the fields of a
word, the three closed tables' variants, the decoded word, and the nodes of a program. -/

namespace Sys2Proof

/-- A byte of the byte stream; bit 7 is its first bit (20_memory.md R35). -/
abbrev Byte := BitVec 8

/-- A 12-bit word's value, fields `IIIIAAAAAAKK` (R49). -/
abbrev Word := BitVec 12

/-- The instruction field, bits 11:8 of a word. -/
abbrev InstCode := BitVec 4

/-- The address field, bits 7:2 of a word. -/
abbrev Addr := BitVec 6

/-- The control field, bits 1:0 of a word. -/
abbrev CtrlCode := BitVec 2

/-- The 16 variants of the instruction field (R53 to R69). They name codes; the block gives them no
other meaning (00_scope.md R5). -/
inductive Opcode where
  | nop0 | ld | add | sub | one | nand | or | xor
  | sto | stoc | ien | oen | ioc | rtn | skz | nopf
deriving DecidableEq, Repr

/-- The four variants of the control field (R73). `undefined` is the NAME of code 2, a legal value
(R76, 93_implementation_defined.md I3). -/
inductive CtrlVariant where
  | null | copyAndShiftOut | undefined | stopTape
deriving DecidableEq, Repr

/-- The seven addressing-mode classes (R71); class code 7 has no constructor (I9). -/
inductive AClass where
  | general | parallelRead | externalInput | qrr | rr | highInput | lowInput
deriving DecidableEq, Repr

/-- The decoded word `dec(v)` of 40_word_codec.md R99: three raw fields and the address's class. -/
structure DecodedWord where
  inst : InstCode
  addr : Addr
  ctrl : CtrlCode
  aclass : AClass
deriving DecidableEq, Repr

/-- A node of a program: "either a Word or a Comment, in source order" (00_scope.md section 5). -/
inductive Node where
  | word (inst : InstCode) (addr : Addr) (ctrl : CtrlCode)
  | comment (text : List Char)
deriving DecidableEq, Repr

end Sys2Proof
end

