-- ==== Sys2Proof/Config.lean ====
section
/-! DEFINITION. The implementation parameters of the block (00_scope.md R6) and the open toolchain
parameters (92_eei_decisions.md D21, D28; 91_not_in_source.md N9, N12, N13, N14). -/

namespace Sys2Proof

/-- `IN_W`, the width of the decoder's input, fixed at the default of R6 (DESIGN CHOICE, log entry 6). -/
abbrev Config.inW : Nat := 32

/-- `OUT_W`, the width of the encoder's output, fixed at the default of R6 (DESIGN CHOICE, log entry 6). -/
abbrev Config.outW : Nat := 32

/-- `ASM_FIELD_OVERFLOW` (D21): what the toolchain does with a numeral too large for its field. -/
inductive AsmFieldOverflow where
  | reject
  | mask
deriving DecidableEq, Repr, Inhabited

/-- The unit of an error's "byte/char offset", which the source does not settle (N14). -/
inductive AsmOffsetUnit where
  | chars
  | bytes
deriving DecidableEq, Repr, Inhabited

/-- The error kinds of R92. The payload of `ExpectedInst` is not in the source (N14) and is left out. -/
inductive AsmErrorKind where
  | expectedInst
  | expectedAddr
  | expectedCtrl
  | expectedComment
  | unexpectedEoi
deriving DecidableEq, Repr, Inhabited

/-- The mnemonics the source does not attest, one field for each instruction code: the mnemonic table that "a model
of the toolchain takes as a parameter" (93_implementation_defined.md I1, 91_not_in_source.md N2). The source attests
`nop0`, `one` and `stoc` for codes 0, 4 and 9, which have no field here. -/
structure MnemonicLabels where
  code1 : List Char
  code2 : List Char
  code3 : List Char
  code5 : List Char
  code6 : List Char
  code7 : List Char
  code8 : List Char
  code10 : List Char
  code11 : List Char
  code12 : List Char
  code13 : List Char
  code14 : List Char
  code15 : List Char
deriving DecidableEq, Repr

/-- The 16 mnemonics: the source's for codes 0, 4 and 9 (30_encoding.md R54, R58, R63), the parameter's for the
others. -/
def MnemonicLabels.spelling (l : MnemonicLabels) : Opcode → List Char
  | .nop0 => ['n', 'o', 'p', '0']
  | .ld => l.code1
  | .add => l.code2
  | .sub => l.code3
  | .one => ['o', 'n', 'e']
  | .nand => l.code5
  | .or => l.code6
  | .xor => l.code7
  | .sto => l.code8
  | .stoc => ['s', 't', 'o', 'c']
  | .ien => l.code10
  | .oen => l.code11
  | .ioc => l.code12
  | .rtn => l.code13
  | .skz => l.code14
  | .nopf => l.code15

/-- The 16 variants in code order. -/
def allOpcodes : List Opcode :=
  [.nop0, .ld, .add, .sub, .one, .nand, .or, .xor, .sto, .stoc, .ien, .oen, .ioc, .rtn, .skz, .nopf]

/-- A mnemonic that a word line can begin with: not empty, no separator and no line end in it, no comment mark in
front (DEDUCED from R84 and R85, log entry 10). -/
def mnemonicReadable (m : List Char) : Bool :=
  !m.isEmpty && m.head? != some ';' && m.all (fun c => !([' ', '\t', '\n', '\r'].contains c))

/-- What the source says of the mnemonic table: canonical lower-case names, a different one for each of the 16 codes
(R53), `sto` one of them (R86); and every name readable. -/
def MnemonicLabels.wellFormed (l : MnemonicLabels) : Bool :=
  let table := allOpcodes.map l.spelling
  table.all (fun m => decide (m.map Char.toLower = m) && mnemonicReadable m) && decide table.Nodup &&
    table.contains ['s', 't', 'o']

/-- The labels that R55 to R57, R59 to R62 and R64 to R69 supply from general knowledge (D23; PRESUMED, log entry 9):
one value of the parameter. -/
def specLabels : MnemonicLabels where
  code1 := ['l', 'd']
  code2 := ['a', 'd', 'd']
  code3 := ['s', 'u', 'b']
  code5 := ['n', 'a', 'n', 'd']
  code6 := ['o', 'r']
  code7 := ['x', 'o', 'r']
  code8 := ['s', 't', 'o']
  code10 := ['i', 'e', 'n']
  code11 := ['o', 'e', 'n']
  code12 := ['i', 'o', 'c']
  code13 := ['r', 't', 'n']
  code14 := ['s', 'k', 'z']
  code15 := ['n', 'o', 'p', 'f']

/-- The toolchain's mnemonic table: labels together with the proof that the source allows them, so that no parameter
can spell an attested mnemonic for another code or hold a name that no text matches. -/
structure MnemonicTable where
  labels : MnemonicLabels := specLabels
  allowed : labels.wellFormed = true := by decide
deriving DecidableEq, Repr, Inhabited

/-- The points of the assembly language that the source leaves open, one field each (DESIGN CHOICE, log entry 10). -/
structure AsmParams where
  /-- I1: the mnemonic table. -/
  mnemonics : MnemonicTable
  /-- `ASM_FIELD_OVERFLOW` (D21). -/
  fieldOverflow : AsmFieldOverflow
  /-- `ASM_SEPARATORS` (D28): whether a tab separates fields as a space does. -/
  tabSeparates : Bool
  /-- `ASM_NEWLINE` (D28): whether a carriage return before a newline belongs to the line's end. -/
  crlfEndsLine : Bool
  /-- `ASM_PREFIX_CASE` (D28): whether `0B`, `0O` and `0H` are base marks too. -/
  upperBaseMark : Bool
  /-- N9: whether separators may stand between the control numeral and the line's end. -/
  trailingSeparators : Bool
  /-- N12: whether a line of separators only counts as blank around the program. -/
  blankMayHoldSeparators : Bool
  /-- N14: what an error's offset counts. -/
  offsetUnit : AsmOffsetUnit
  /-- N14: the error kind of text left over after the control numeral, which R92 does not name. -/
  leftoverKind : AsmErrorKind
deriving DecidableEq, Repr, Inhabited

/-- The toolchain's parameters: OPEN in the spec, so nothing is known of them here. -/
opaque Config.asmParams : AsmParams

end Sys2Proof
end

