-- ==== Sys2Proof/Syntax.lean ====
section
/-! DEFINITION. The instructions: one constructor for each row of spec/opcode_table.json, the 16 rows of
the word format first, then the block's ten commands. -/

namespace Sys2Proof

/-- The rows of the opcode table. A word row carries its free fields, address and control (R53); a
command carries the operand inputs it uses (R80). -/
inductive Instr where
  | nop0 (addr : Addr) (ctrl : CtrlCode)
  | ld (addr : Addr) (ctrl : CtrlCode)
  | add (addr : Addr) (ctrl : CtrlCode)
  | sub (addr : Addr) (ctrl : CtrlCode)
  | one (addr : Addr) (ctrl : CtrlCode)
  | nand (addr : Addr) (ctrl : CtrlCode)
  | or (addr : Addr) (ctrl : CtrlCode)
  | xor (addr : Addr) (ctrl : CtrlCode)
  | sto (addr : Addr) (ctrl : CtrlCode)
  | stoc (addr : Addr) (ctrl : CtrlCode)
  | ien (addr : Addr) (ctrl : CtrlCode)
  | oen (addr : Addr) (ctrl : CtrlCode)
  | ioc (addr : Addr) (ctrl : CtrlCode)
  | rtn (addr : Addr) (ctrl : CtrlCode)
  | skz (addr : Addr) (ctrl : CtrlCode)
  | nopf (addr : Addr) (ctrl : CtrlCode)
  | wenc (inst : InstCode) (addr : Addr) (ctrl : CtrlCode)
  | wdec (word : BitVec Config.inW)
  | acls (addr : Addr)
  | pkStart
  | pkWord (inst : InstCode) (addr : Addr) (ctrl : CtrlCode)
  | pkComment
  | pkFlush
  | upStart
  | upByte (byte : Byte)
  | upEnd
deriving DecidableEq, Repr

end Sys2Proof
end

