-- ==== Sys2Proof/WellFormed.lean ====
section
/-! DEFINITION. Well-formedness: every field value lies in its field (30_encoding.md R70, R78; 40_word_codec.md
R98). The operand types already have the ports' exact widths, so every term of `Instr` passes; the range
checks themselves are stated on numbers, where they can fail (an over-long numeral, R87). -/

namespace Sys2Proof

/-- An instruction code is one of 0 to 15 (R53). -/
def instInRange (n : Nat) : Bool := decide (n < 16)

/-- "An address value is always in `[0, 63]`" (R70). -/
def addrInRange (n : Nat) : Bool := decide (n < 64)

/-- A control code is one of 0 to 3 (R73). -/
def ctrlInRange (n : Nat) : Bool := decide (n < 4)

/-- A byte of a stream is one of 0 to 255 (20_memory.md R33). -/
def byteInRange (n : Nat) : Bool := decide (n < 256)

/-- A decoder input is an `IN_W`-bit value (00_scope.md R6). -/
def wordInputInRange (n : Nat) : Bool := decide (n < 2 ^ Config.inW)

/-- The three fields of one word are in range. -/
def fieldsInRange (inst addr ctrl : Nat) : Bool :=
  instInRange inst && addrInRange addr && ctrlInRange ctrl

/-- Every operand of the instruction lies in its field. -/
def Instr.wellFormed : Instr → Bool
  | .nop0 a k | .ld a k | .add a k | .sub a k | .one a k | .nand a k | .or a k | .xor a k
  | .sto a k | .stoc a k | .ien a k | .oen a k | .ioc a k | .rtn a k | .skz a k | .nopf a k =>
      addrInRange a.toNat && ctrlInRange k.toNat
  | .wenc i a k | .pkWord i a k => fieldsInRange i.toNat a.toNat k.toNat
  | .wdec x => wordInputInRange x.toNat
  | .acls a => addrInRange a.toNat
  | .upByte b => byteInRange b.toNat
  | .pkStart | .pkComment | .pkFlush | .upStart | .upEnd => true

end Sys2Proof
end

