-- ==== Sys2Proof/Decode.lean ====
section
/-! DEFINITION. The field tables, the word format, the command encoding, and the decoder and encoder between
requests and instructions (30_encoding.md sections 1 to 6). -/

namespace Sys2Proof

/-! ## The field tables (R53, R73, R72): total matches, one arm for each value, no wildcard (R103) -/

/-- The 4-bit code of an instruction variant (R54 to R69). -/
def Opcode.code : Opcode → InstCode
  | .nop0 => 0#4
  | .ld => 1#4
  | .add => 2#4
  | .sub => 3#4
  | .one => 4#4
  | .nand => 5#4
  | .or => 6#4
  | .xor => 7#4
  | .sto => 8#4
  | .stoc => 9#4
  | .ien => 10#4
  | .oen => 11#4
  | .ioc => 12#4
  | .rtn => 13#4
  | .skz => 14#4
  | .nopf => 15#4

/-- The instruction variant of a code: every code is assigned (R53, R79). -/
def Opcode.ofCode (c : InstCode) : Opcode :=
  match c.getLsbD 3, c.getLsbD 2, c.getLsbD 1, c.getLsbD 0 with
  | false, false, false, false => .nop0
  | false, false, false, true => .ld
  | false, false, true, false => .add
  | false, false, true, true => .sub
  | false, true, false, false => .one
  | false, true, false, true => .nand
  | false, true, true, false => .or
  | false, true, true, true => .xor
  | true, false, false, false => .sto
  | true, false, false, true => .stoc
  | true, false, true, false => .ien
  | true, false, true, true => .oen
  | true, true, false, false => .ioc
  | true, true, false, true => .rtn
  | true, true, true, false => .skz
  | true, true, true, true => .nopf

/-- The canonical lowercase mnemonic. `nop0`, `one` and `stoc` are the source's; the others are labels the
spec supplies from general knowledge (D23, I1; PRESUMED, log entry 9). -/
def Opcode.mnemonic : Opcode → String
  | .nop0 => "nop0"
  | .ld => "ld"
  | .add => "add"
  | .sub => "sub"
  | .one => "one"
  | .nand => "nand"
  | .or => "or"
  | .xor => "xor"
  | .sto => "sto"
  | .stoc => "stoc"
  | .ien => "ien"
  | .oen => "oen"
  | .ioc => "ioc"
  | .rtn => "rtn"
  | .skz => "skz"
  | .nopf => "nopf"

/-- The 2-bit code of a control variant (R74 to R77). -/
def CtrlVariant.code : CtrlVariant → CtrlCode
  | .null => 0#2
  | .copyAndShiftOut => 1#2
  | .undefined => 2#2
  | .stopTape => 3#2

/-- The control variant of a code: every code is assigned (R73). -/
def CtrlVariant.ofCode (c : CtrlCode) : CtrlVariant :=
  match c.getLsbD 1, c.getLsbD 0 with
  | false, false => .null
  | false, true => .copyAndShiftOut
  | true, false => .undefined
  | true, true => .stopTape

/-- The source's name of a control variant (R73). -/
def CtrlVariant.name : CtrlVariant → String
  | .null => "null"
  | .copyAndShiftOut => "copy-and-shift-out"
  | .undefined => "undefined"
  | .stopTape => "stop-tape"

/-- The 3-bit class code `aclass[2:0]` (R72). -/
def AClass.code : AClass → BitVec 3
  | .general => 0#3
  | .parallelRead => 1#3
  | .externalInput => 2#3
  | .qrr => 3#3
  | .rr => 4#3
  | .highInput => 5#3
  | .lowInput => 6#3

/-- The source's name of a class (R71). -/
def AClass.name : AClass → String
  | .general => "general"
  | .parallelRead => "parallel read"
  | .externalInput => "external input"
  | .qrr => "QRR"
  | .rr => "RR"
  | .highInput => "high input"
  | .lowInput => "low input / high-z"

/-! ## The word format (R49, R52) -/

/-- `enc(I, A, K) = I << 8 | A << 2 | K` (R49, 40_word_codec.md R96). -/
def enc (inst : InstCode) (addr : Addr) (ctrl : CtrlCode) : Word :=
  (inst.setWidth 12 <<< 8) ||| (addr.setWidth 12 <<< 2) ||| ctrl.setWidth 12

/-- Bits 11:8 of a word, the instruction field (R52). -/
def instField (v : Word) : InstCode := v.extractLsb' 8 4

/-- Bits 7:2 of a word, the address field (R52). -/
def addrField (v : Word) : Addr := v.extractLsb' 2 6

/-- Bits 1:0 of a word, the control field (R52). -/
def ctrlField (v : Word) : CtrlCode := v.extractLsb' 0 2

/-- `in_word[11:0]`: the word in a decoder input, whatever its width; bits 12 and up are "silently ignored"
(R52, 40_word_codec.md R99). -/
def wordOfInput {n : Nat} (x : BitVec n) : Word := x.setWidth 12

/-! ## Requests: what the host puts on the block's inputs (R80) -/

/-- The block's input ports during one command (R80). -/
structure Ports where
  rst : Bool
  cmd : BitVec 4
  inInst : InstCode
  inAddr : Addr
  inCtrl : CtrlCode
  inWord : BitVec Config.inW
  inByte : Byte
deriving DecidableEq, Repr

/-- What one step of the block works on. `ports` is the spec's own interface. `word` is the MODEL's own: an
instruction word handed to the codec by itself, the form in which a word row of the opcode table, which is
no command, takes a step (DESIGN CHOICE, log entry 3). -/
inductive Request where
  | ports (p : Ports)
  | word (x : BitVec Config.inW)
deriving DecidableEq, Repr

/-- Why a request decodes to no instruction. -/
inductive DecodeError where
  /-- `cmd` is `0x0` or one of `0xB` to `0xF` (R82). -/
  | reservedCommand (code : BitVec 4)
deriving DecidableEq, Repr

/-- Whether the request asserts `rst` (70_reset_and_hazards.md R146). -/
def Request.rst : Request → Bool
  | .ports p => p.rst
  | .word _ => false

/-- Every input low: the ports of an encoded command whose unused operand inputs are 0. -/
def Ports.zero : Ports :=
  ⟨false, 0#4, 0#4, 0#6, 0#2, 0#32, 0#8⟩

/-! ## Decoding -/

/-- The instruction of a command's ports (R80, R81, R82). An operand input the command does not use is
ignored, and so is `rst`, which the step reads first. -/
def decodePorts (p : Ports) : Except DecodeError Instr :=
  match p.cmd.getLsbD 3, p.cmd.getLsbD 2, p.cmd.getLsbD 1, p.cmd.getLsbD 0 with
  | false, false, false, false => .error (.reservedCommand p.cmd)
  | false, false, false, true => .ok (.wenc p.inInst p.inAddr p.inCtrl)
  | false, false, true, false => .ok (.wdec p.inWord)
  | false, false, true, true => .ok (.acls p.inAddr)
  | false, true, false, false => .ok .pkStart
  | false, true, false, true => .ok (.pkWord p.inInst p.inAddr p.inCtrl)
  | false, true, true, false => .ok .pkComment
  | false, true, true, true => .ok .pkFlush
  | true, false, false, false => .ok .upStart
  | true, false, false, true => .ok (.upByte p.inByte)
  | true, false, true, false => .ok .upEnd
  | true, false, true, true => .error (.reservedCommand p.cmd)
  | true, true, false, false => .error (.reservedCommand p.cmd)
  | true, true, false, true => .error (.reservedCommand p.cmd)
  | true, true, true, false => .error (.reservedCommand p.cmd)
  | true, true, true, true => .error (.reservedCommand p.cmd)

/-- The word row with the given variant and free fields (R53). -/
def wordRow (o : Opcode) (addr : Addr) (ctrl : CtrlCode) : Instr :=
  match o with
  | .nop0 => .nop0 addr ctrl
  | .ld => .ld addr ctrl
  | .add => .add addr ctrl
  | .sub => .sub addr ctrl
  | .one => .one addr ctrl
  | .nand => .nand addr ctrl
  | .or => .or addr ctrl
  | .xor => .xor addr ctrl
  | .sto => .sto addr ctrl
  | .stoc => .stoc addr ctrl
  | .ien => .ien addr ctrl
  | .oen => .oen addr ctrl
  | .ioc => .ioc addr ctrl
  | .rtn => .rtn addr ctrl
  | .skz => .skz addr ctrl
  | .nopf => .nopf addr ctrl

/-- The row of a word: "Never fails (all codes assigned)" (40_word_codec.md R99, R78). -/
def decodeWord (v : Word) : Instr :=
  wordRow (Opcode.ofCode (instField v)) (addrField v) (ctrlField v)

/-- The decoder: total on requests, rejecting the reserved command codes by name. -/
def decode : Request → Except DecodeError Instr
  | .ports p => decodePorts p
  | .word x => .ok (decodeWord (wordOfInput x))

/-! ## Encoding -/

/-- The decoder input that holds a word: the 12 used bits, "0 in positions 12+" (40_word_codec.md R96). -/
def Request.ofWord (v : Word) : Request := .word (v.setWidth Config.inW)

/-- The encoder: the request that asks for the instruction, unused inputs 0 (R49, R81). -/
def encode : Instr → Request
  | .nop0 addr ctrl => .ofWord (enc 0#4 addr ctrl)
  | .ld addr ctrl => .ofWord (enc 1#4 addr ctrl)
  | .add addr ctrl => .ofWord (enc 2#4 addr ctrl)
  | .sub addr ctrl => .ofWord (enc 3#4 addr ctrl)
  | .one addr ctrl => .ofWord (enc 4#4 addr ctrl)
  | .nand addr ctrl => .ofWord (enc 5#4 addr ctrl)
  | .or addr ctrl => .ofWord (enc 6#4 addr ctrl)
  | .xor addr ctrl => .ofWord (enc 7#4 addr ctrl)
  | .sto addr ctrl => .ofWord (enc 8#4 addr ctrl)
  | .stoc addr ctrl => .ofWord (enc 9#4 addr ctrl)
  | .ien addr ctrl => .ofWord (enc 10#4 addr ctrl)
  | .oen addr ctrl => .ofWord (enc 11#4 addr ctrl)
  | .ioc addr ctrl => .ofWord (enc 12#4 addr ctrl)
  | .rtn addr ctrl => .ofWord (enc 13#4 addr ctrl)
  | .skz addr ctrl => .ofWord (enc 14#4 addr ctrl)
  | .nopf addr ctrl => .ofWord (enc 15#4 addr ctrl)
  | .wenc inst addr ctrl =>
      .ports { Ports.zero with cmd := 0x1#4, inInst := inst, inAddr := addr, inCtrl := ctrl }
  | .wdec word => .ports { Ports.zero with cmd := 0x2#4, inWord := word }
  | .acls addr => .ports { Ports.zero with cmd := 0x3#4, inAddr := addr }
  | .pkStart => .ports { Ports.zero with cmd := 0x4#4 }
  | .pkWord inst addr ctrl =>
      .ports { Ports.zero with cmd := 0x5#4, inInst := inst, inAddr := addr, inCtrl := ctrl }
  | .pkComment => .ports { Ports.zero with cmd := 0x6#4 }
  | .pkFlush => .ports { Ports.zero with cmd := 0x7#4 }
  | .upStart => .ports { Ports.zero with cmd := 0x8#4 }
  | .upByte byte => .ports { Ports.zero with cmd := 0x9#4, inByte := byte }
  | .upEnd => .ports { Ports.zero with cmd := 0xA#4 }

/-- The ports with every input the command does not use at 0 (R80's column "used by"; "An operand input a command
does not use is ignored"). -/
def Ports.usedInputs (p : Ports) : Ports :=
  { rst := false
    cmd := p.cmd
    inInst := if p.cmd = 0x1#4 ∨ p.cmd = 0x5#4 then p.inInst else 0#4
    inAddr := if p.cmd = 0x1#4 ∨ p.cmd = 0x3#4 ∨ p.cmd = 0x5#4 then p.inAddr else 0#6
    inCtrl := if p.cmd = 0x1#4 ∨ p.cmd = 0x5#4 then p.inCtrl else 0#2
    inWord := if p.cmd = 0x2#4 then p.inWord else 0#32
    inByte := if p.cmd = 0x9#4 then p.inByte else 0#8 }

/-! ## The opcode table, and requests written as its bits -/

/-- The two formats of spec/opcode_table.json. -/
inductive RowFormat where
  | word12
  | cmd4
deriving DecidableEq, Repr

/-- A row of spec/opcode_table.json: its mnemonic, format, match and mask. -/
structure Row where
  mnemonic : String
  format : RowFormat
  matchBits : BitVec 12
  mask : BitVec 12
deriving DecidableEq, Repr

/-- The row of an instruction. -/
def Instr.row : Instr → Row
  | .nop0 _ _ => ⟨"nop0", .word12, 0x000#12, 0xF00#12⟩
  | .ld _ _ => ⟨"ld", .word12, 0x100#12, 0xF00#12⟩
  | .add _ _ => ⟨"add", .word12, 0x200#12, 0xF00#12⟩
  | .sub _ _ => ⟨"sub", .word12, 0x300#12, 0xF00#12⟩
  | .one _ _ => ⟨"one", .word12, 0x400#12, 0xF00#12⟩
  | .nand _ _ => ⟨"nand", .word12, 0x500#12, 0xF00#12⟩
  | .or _ _ => ⟨"or", .word12, 0x600#12, 0xF00#12⟩
  | .xor _ _ => ⟨"xor", .word12, 0x700#12, 0xF00#12⟩
  | .sto _ _ => ⟨"sto", .word12, 0x800#12, 0xF00#12⟩
  | .stoc _ _ => ⟨"stoc", .word12, 0x900#12, 0xF00#12⟩
  | .ien _ _ => ⟨"ien", .word12, 0xA00#12, 0xF00#12⟩
  | .oen _ _ => ⟨"oen", .word12, 0xB00#12, 0xF00#12⟩
  | .ioc _ _ => ⟨"ioc", .word12, 0xC00#12, 0xF00#12⟩
  | .rtn _ _ => ⟨"rtn", .word12, 0xD00#12, 0xF00#12⟩
  | .skz _ _ => ⟨"skz", .word12, 0xE00#12, 0xF00#12⟩
  | .nopf _ _ => ⟨"nopf", .word12, 0xF00#12, 0xF00#12⟩
  | .wenc _ _ _ => ⟨"WENC", .cmd4, 0x1#12, 0xF#12⟩
  | .wdec _ => ⟨"WDEC", .cmd4, 0x2#12, 0xF#12⟩
  | .acls _ => ⟨"ACLS", .cmd4, 0x3#12, 0xF#12⟩
  | .pkStart => ⟨"PK_START", .cmd4, 0x4#12, 0xF#12⟩
  | .pkWord _ _ _ => ⟨"PK_WORD", .cmd4, 0x5#12, 0xF#12⟩
  | .pkComment => ⟨"PK_COMMENT", .cmd4, 0x6#12, 0xF#12⟩
  | .pkFlush => ⟨"PK_FLUSH", .cmd4, 0x7#12, 0xF#12⟩
  | .upStart => ⟨"UP_START", .cmd4, 0x8#12, 0xF#12⟩
  | .upByte _ => ⟨"UP_BYTE", .cmd4, 0x9#12, 0xF#12⟩
  | .upEnd => ⟨"UP_END", .cmd4, 0xA#12, 0xF#12⟩

/-- The bits a row's match and mask speak of: a word's 12 bits, or the 4 bits of `cmd`. -/
def Request.tableBits : Request → RowFormat × BitVec 12
  | .word x => (.word12, wordOfInput x)
  | .ports p => (.cmd4, p.cmd.setWidth 12)

/-- The request falls under the row: same format, and its bits under the mask are the row's match. -/
def Row.covers (r : Row) (q : Request) : Bool :=
  decide (q.tableBits.1 = r.format) && decide (q.tableBits.2 &&& r.mask = r.matchBits)

/-- A command's ports laid out in one number, `cmd` in bits 3:0, `in_inst` 7:4, `in_addr` 13:8, `in_ctrl` 15:14,
`in_word` 47:16, `in_byte` 55:48 (the model's layout, DESIGN CHOICE: log entry 7). -/
def Ports.ofNat (w : Nat) : Ports :=
  let x := BitVec.ofNat 56 w
  { rst := false
    cmd := x.extractLsb' 0 4
    inInst := x.extractLsb' 4 4
    inAddr := x.extractLsb' 8 6
    inCtrl := x.extractLsb' 14 2
    inWord := x.extractLsb' 16 32
    inByte := x.extractLsb' 48 8 }

/-- The request whose table bits are the low `nbits` bits of `w`. A word row has 12 bits, 16 in whole bytes; a
command row has 4, 8 in whole bytes, its operand inputs above them 0; a longer number is a command with its
operand inputs (DESIGN CHOICE, log entry 7). -/
def tableRequest (nbits w : Nat) : Request :=
  let v := w % 2 ^ nbits
  if 8 < nbits ∧ nbits ≤ 16 then .word (BitVec.ofNat 32 v) else .ports (Ports.ofNat v)

/-- The instruction the decoder reads from a table row's bits, none where it refuses. -/
def decodeTableWord (nbits w : Nat) : Option Instr :=
  match decode (tableRequest nbits w) with
  | .ok i => some i
  | .error _ => none

end Sys2Proof
end

