-- ==== Sys2Proof/Machine/State.lean ====
section
/-! DEFINITION. The state of the block (10_state.md R13), the outcome of a command (60_exceptions.md R133), the
reasons a step can stop, and the state after reset. -/

namespace Sys2Proof.Machine

open Sys2Proof

/-- The phase of a stream unit (R17, R23). -/
inductive StreamPhase where
  | idle | active | done
deriving DecidableEq, Repr

/-- `pk_ofs`, "one of 0, 4" (R13, R18). -/
inductive PkOfs where
  | zero | four
deriving DecidableEq, Repr

/-- `up_n`, "one of 0, 4, 8" (R13, R24). -/
inductive UpN where
  | zero | four | eight
deriving DecidableEq, Repr

/-- Why the block turns a command away (60_exceptions.md R133, R135). This is the spec's refusal, after which
the block goes on; it is not `Refusal` below, which ends a run. -/
inductive RefuseReason where
  | reservedCommand
  | noOpenStream
deriving DecidableEq, Repr

/-- The reasons a step faults. -/
inductive Fault where
  /-- `InternalConsistency` (60_exceptions.md R134): raised by `step` for a command in a state that has recorded
  the fault; no command records it, since the tables are total. Safe: the model stops where the spec says the
  block takes no further step. -/
  | internalConsistency
deriving DecidableEq, Repr

/-- The reasons a step refuses. -/
inductive Refusal where
  /-- An arm of `exec` without its meaning; no arm raises it. Safe: the model stops. -/
  | notModelled (mnemonic : String)
deriving DecidableEq, Repr

/-- The response of a completed command: only the outputs that the command drives (30_encoding.md R80,
93_implementation_defined.md I4). -/
inductive Response where
  /-- No output driven: PK_START, PK_COMMENT, UP_START, UP_END, RESET. -/
  | none
  /-- `out_word`, by WENC. -/
  | word (outWord : BitVec Config.outW)
  /-- `out_inst`, `out_addr`, `out_ctrl`, `out_aclass`, by WDEC. -/
  | fields (d : DecodedWord)
  /-- `out_aclass`, by ACLS. -/
  | aclass (c : AClass)
  /-- `out_bytes`, by PK_WORD and PK_FLUSH. -/
  | bytes (bs : List Byte)
  /-- `out_words`, by UP_BYTE. -/
  | words (ws : List DecodedWord)
  /-- The codec pass over a word row: the encoder's and the decoder's outputs (DESIGN CHOICE, log entry 3). -/
  | codec (outWord : BitVec Config.outW) (d : DecodedWord)
deriving DecidableEq, Repr

/-- The outcome of the last command (R133). -/
inductive CommandResult where
  /-- No command was performed in the last step. -/
  | none
  | completed (r : Response)
  | refused (why : RefuseReason)
  | faulted (why : Fault)
deriving DecidableEq, Repr

/-- The state of the block. -/
structure State where
  /-- `pk_phase` (R17). -/
  pkPhase : StreamPhase
  /-- `pk_ofs` (R18). -/
  pkOfs : PkOfs
  /-- `pk_hold` (R19). -/
  pkHold : BitVec 4
  /-- `pk_cnt` (R20). -/
  pkCnt : Nat
  /-- `pk_nbytes` (R21). -/
  pkNbytes : Nat
  /-- `up_phase` (R23). -/
  upPhase : StreamPhase
  /-- `up_n` (R24). -/
  upN : UpN
  /-- `up_acc` (R25). -/
  upAcc : BitVec 8
  /-- `up_nbytes` (R26). -/
  upNbytes : Nat
  /-- `up_cnt` (R27). -/
  upCnt : Nat
  /-- The sticky mark `refused` (R31). -/
  refused : Bool
  /-- The set `faults`, without repeats (R31). -/
  faults : List Fault
  /-- MODEL's own: the outcome of the last command (DESIGN CHOICE, log entry 2). -/
  result : CommandResult
  /-- MODEL's own: the requests issued and not yet performed, in issue order (DESIGN CHOICE, log entry 1). -/
  input : List Request
deriving DecidableEq, Repr

/-- The launch state (70_reset_and_hazards.md R146, R147): every field of R13 at its reset value, no refusal and
no fault recorded, and nothing issued yet. -/
def State.reset : State where
  pkPhase := .idle
  pkOfs := .zero
  pkHold := 0#4
  pkCnt := 0
  pkNbytes := 0
  upPhase := .idle
  upN := .zero
  upAcc := 0#8
  upNbytes := 0
  upCnt := 0
  refused := false
  faults := []
  result := .none
  input := []

end Sys2Proof.Machine
end

