-- ==== Sys2Proof/Machine/Flags.lean ====
section
/-! DEFINITION. The block has no flags ("Flags written: none" in every command rule). Here stand its two status
outputs (10_state.md R16) and its two sticky marks (10_state.md R31). -/

namespace Sys2Proof.Machine

/-- The status output `st_pk_phase` (R16). -/
def State.stPkPhase (s : State) : StreamPhase := s.pkPhase

/-- The status output `st_up_phase` (R16). -/
def State.stUpPhase (s : State) : StreamPhase := s.upPhase

/-- Set the mark `refused`; nothing clears it (R31). -/
def State.markRefused (s : State) : State := { s with refused := true }

/-- Add a reason to the set `faults`; nothing removes one (R31). -/
def State.addFault (f : Fault) (s : State) : State :=
  { s with faults := if f ∈ s.faults then s.faults else f :: s.faults }

/-- A fault is recorded: the block performs no further command (60_exceptions.md R134). -/
def State.stuck (s : State) : Bool := !s.faults.isEmpty

end Sys2Proof.Machine
end

