-- ==== Sys2Proof/Machine/Operands.lean ====
section
/-! DEFINITION. Operand functions: the classifier and the decoder of a word (30_encoding.md R72, 40_word_codec.md
R97, R99), and the widths and values of the two offset fields. -/

namespace Sys2Proof.Machine

open Sys2Proof

/-- The class table of R71 as R103 asks for it: one arm for each of the 64 address values, in rising order, no
wildcard. -/
def classTable (a : Addr) : AClass :=
  match a.getLsbD 5, a.getLsbD 4, a.getLsbD 3, a.getLsbD 2, a.getLsbD 1, a.getLsbD 0 with
  | false, false, false, false, false, false => .general
  | false, false, false, false, false, true => .general
  | false, false, false, false, true, false => .general
  | false, false, false, false, true, true => .general
  | false, false, false, true, false, false => .general
  | false, false, false, true, false, true => .general
  | false, false, false, true, true, false => .general
  | false, false, false, true, true, true => .general
  | false, false, true, false, false, false => .general
  | false, false, true, false, false, true => .general
  | false, false, true, false, true, false => .general
  | false, false, true, false, true, true => .general
  | false, false, true, true, false, false => .general
  | false, false, true, true, false, true => .general
  | false, false, true, true, true, false => .general
  | false, false, true, true, true, true => .general
  | false, true, false, false, false, false => .general
  | false, true, false, false, false, true => .general
  | false, true, false, false, true, false => .general
  | false, true, false, false, true, true => .general
  | false, true, false, true, false, false => .general
  | false, true, false, true, false, true => .general
  | false, true, false, true, true, false => .general
  | false, true, false, true, true, true => .general
  | false, true, true, false, false, false => .general
  | false, true, true, false, false, true => .general
  | false, true, true, false, true, false => .general
  | false, true, true, false, true, true => .general
  | false, true, true, true, false, false => .general
  | false, true, true, true, false, true => .general
  | false, true, true, true, true, false => .general
  | false, true, true, true, true, true => .general
  | true, false, false, false, false, false => .general
  | true, false, false, false, false, true => .general
  | true, false, false, false, true, false => .general
  | true, false, false, false, true, true => .general
  | true, false, false, true, false, false => .general
  | true, false, false, true, false, true => .general
  | true, false, false, true, true, false => .general
  | true, false, false, true, true, true => .general
  | true, false, true, false, false, false => .parallelRead
  | true, false, true, false, false, true => .parallelRead
  | true, false, true, false, true, false => .parallelRead
  | true, false, true, false, true, true => .parallelRead
  | true, false, true, true, false, false => .parallelRead
  | true, false, true, true, false, true => .parallelRead
  | true, false, true, true, true, false => .parallelRead
  | true, false, true, true, true, true => .parallelRead
  | true, true, false, false, false, false => .externalInput
  | true, true, false, false, false, true => .externalInput
  | true, true, false, false, true, false => .externalInput
  | true, true, false, false, true, true => .externalInput
  | true, true, false, true, false, false => .externalInput
  | true, true, false, true, false, true => .externalInput
  | true, true, false, true, true, false => .externalInput
  | true, true, false, true, true, true => .externalInput
  | true, true, true, false, false, false => .qrr
  | true, true, true, false, false, true => .rr
  | true, true, true, false, true, false => .highInput
  | true, true, true, false, true, true => .highInput
  | true, true, true, true, false, false => .lowInput
  | true, true, true, true, false, true => .lowInput
  | true, true, true, true, true, false => .lowInput
  | true, true, true, true, true, true => .lowInput

/-- `classify(a)` (R72): the address's entry in the class table. -/
def classify (a : Addr) : AClass := classTable a

/-- R72's bit-level function, the chain of ranges that the spec derives from R71's table. -/
def classifyByRanges (a : Addr) : AClass :=
  if a.toNat ≤ 39 then .general
  else if a.toNat ≤ 47 then .parallelRead
  else if a.toNat ≤ 55 then .externalInput
  else if a.toNat = 56 then .qrr
  else if a.toNat = 57 then .rr
  else if a.toNat ≤ 59 then .highInput
  else .lowInput

/-- `dec(v)` (40_word_codec.md R99): the three fields and the class of the address, computed anew each time
(10_state.md R29). -/
def dec (v : Word) : DecodedWord :=
  { inst := instField v, addr := addrField v, ctrl := ctrlField v, aclass := classify (addrField v) }

/-- WDEC's outputs for a decoder input of any width: bits 12 and up are ignored (R99). -/
def decInput {n : Nat} (x : BitVec n) : DecodedWord := dec (wordOfInput x)

/-- WENC's output at width `m`: the word, zeros in positions 12 and up (R96). -/
def encOutput (m : Nat) (inst : InstCode) (addr : Addr) (ctrl : CtrlCode) : BitVec m :=
  (enc inst addr ctrl).setWidth m

/-- The variant of a decoded word's instruction field (R97). -/
def opcodeOf (d : DecodedWord) : Opcode := Opcode.ofCode d.inst

/-- The variant of a decoded word's control field (R97). -/
def ctrlVariantOf (d : DecodedWord) : CtrlVariant := CtrlVariant.ofCode d.ctrl

/-- `pk_ofs` as a number of bits (10_state.md R18). -/
def PkOfs.bits : PkOfs → Nat
  | .zero => 0
  | .four => 4

/-- `up_n` as a number of bits (10_state.md R24). -/
def UpN.bits : UpN → Nat
  | .zero => 0
  | .four => 4
  | .eight => 8

end Sys2Proof.Machine
end

