-- ==== Sys2Proof/Machine/Ops.lean ====
section
/-! DEFINITION. The shared operations: ending a command (complete, refuse, fault), RESET, idling, taking the next
request, and the moves of the two stream units. The block takes no exceptions (60_exceptions.md R132); a
refusal (R135) and a fault (R134) are what it has in their place. -/

namespace Sys2Proof.Machine

open Sys2Proof Host

/-! ## How a command ends -/

/-- The command completes with a response (R133, outcome 3). -/
def State.complete (r : Response) (s : State) : State := { s with result := .completed r }

/-- The command is refused (R135): the mark `refused` is set, no other field of R13 changes, and there is no
response. The block then accepts further commands, so this is a next state (DEDUCED, log entry 4). -/
def State.refuse (why : RefuseReason) (s : State) : State :=
  { s.markRefused with result := .refused why }

/-- The fault is recorded (R134): it is added to `faults` and there is no response. No meaning calls this: the
tables are total (40_word_codec.md R103), so no command reaches it. -/
def State.recordFault (f : Fault) (s : State) : State :=
  { s.addFault f with result := .faulted f }

/-- A step in which the host has issued nothing: no command, so no response and no change (DESIGN CHOICE, log entry 1). -/
def State.idleStep (s : State) : State := { s with result := .none }

/-! ## RESET and the host's requests -/

/-- RESET (70_reset_and_hazards.md R146): every hardware field to its reset value; the marks `refused` and
`faults` stay; no response. -/
def State.applyReset (s : State) : State :=
  { s with
    pkPhase := .idle, pkOfs := .zero, pkHold := 0#4, pkCnt := 0, pkNbytes := 0
    upPhase := .idle, upN := .zero, upAcc := 0#8, upNbytes := 0, upCnt := 0
    result := .completed .none }

/-- The next request, and the state with it taken off the list of those issued (20_memory.md R47). -/
def State.fetch (s : State) : Option (Request × State) :=
  match s.input with
  | [] => none
  | q :: rest => some (q, { s with input := rest })

/-- The host issues a request, after those it has issued before (20_memory.md R47). -/
def State.issue (q : Request) (s : State) : State := { s with input := s.input ++ [q] }

/-- The host issues a request that is performed next. -/
def State.issueNext (q : Request) (s : State) : State := { s with input := q :: s.input }

/-! ## The word codec -/

/-- The codec's meaning of a word row (30_encoding.md R53): encode the fields by 40_word_codec.md R96, decode the
word by R99, touch nothing (R104). -/
def State.codecPass (inst : InstCode) (addr : Addr) (ctrl : CtrlCode) (s : State) : State :=
  s.complete (.codec (encOutput Config.outW inst addr ctrl) (dec (enc inst addr ctrl)))

/-! ## The packer -/

/-- `require s.pk_phase = ACTIVE else refuse NoOpenStream`. -/
def requirePacking (s : State) (body : State → State) : Outcome State Fault Refusal :=
  if s.pkPhase = .active then .next (body s) else .next (s.refuse .noOpenStream)

/-- A fresh packing stream (41_stream_packer.md R105, 10_state.md R32). -/
def State.openPacker (s : State) : State :=
  { s with pkPhase := .active, pkOfs := .zero, pkHold := 0#4, pkCnt := 0, pkNbytes := 0 }

/-- Pack the word `v` (41_stream_packer.md R107, from `v` on). -/
def State.packWord (v : Word) (s : State) : State :=
  match s.pkOfs with
  | .zero =>
      { s with
        pkHold := v.extractLsb' 0 4
        pkOfs := .four
        pkNbytes := s.pkNbytes + 1
        pkCnt := s.pkCnt + 1
        result := .completed (.bytes [v.extractLsb' 4 8]) }
  | .four =>
      { s with
        pkHold := 0#4
        pkOfs := .zero
        pkNbytes := s.pkNbytes + 2
        pkCnt := s.pkCnt + 1
        result := .completed (.bytes [s.pkHold ++ v.extractLsb' 8 4, v.extractLsb' 0 8]) }

/-- End the packing stream, padding the held nibble with 4 zero bits (41_stream_packer.md R110). -/
def State.flushPacker (s : State) : State :=
  match s.pkOfs with
  | .zero =>
      { s with pkHold := 0#4, pkOfs := .zero, pkPhase := .done, result := .completed (.bytes []) }
  | .four =>
      { s with
        pkNbytes := s.pkNbytes + 1
        pkHold := 0#4
        pkOfs := .zero
        pkPhase := .done
        result := .completed (.bytes [s.pkHold ++ 0#4]) }

/-! ## The unpacker -/

/-- `require s.up_phase = ACTIVE else refuse NoOpenStream`. -/
def requireUnpacking (s : State) (body : State → State) : Outcome State Fault Refusal :=
  if s.upPhase = .active then .next (body s) else .next (s.refuse .noOpenStream)

/-- A fresh unpacking stream (42_stream_unpacker.md R119, 10_state.md R32). -/
def State.openUnpacker (s : State) : State :=
  { s with upPhase := .active, upN := .zero, upAcc := 0#8, upNbytes := 0, upCnt := 0 }

/-- Accept the byte `b` (42_stream_unpacker.md R121, from `b` on). -/
def State.unpackByte (b : Byte) (s : State) : State :=
  match s.upN with
  | .zero =>
      { s with
        upAcc := b
        upN := .eight
        upNbytes := s.upNbytes + 1
        result := .completed (.words []) }
  | .eight =>
      { s with
        upAcc := (b.extractLsb' 0 4).setWidth 8
        upN := .four
        upCnt := s.upCnt + 1
        upNbytes := s.upNbytes + 1
        result := .completed (.words [dec (s.upAcc ++ b.extractLsb' 4 4)]) }
  | .four =>
      { s with
        upAcc := 0#8
        upN := .zero
        upCnt := s.upCnt + 1
        upNbytes := s.upNbytes + 1
        result := .completed (.words [dec (s.upAcc.extractLsb' 0 4 ++ b)]) }

/-- End the unpacking stream, discarding the held bits whatever their values (42_stream_unpacker.md R123). -/
def State.endUnpacker (s : State) : State :=
  { s with upAcc := 0#8, upN := .zero, upPhase := .done, result := .completed .none }

end Sys2Proof.Machine
end

