-- ==== Sys2Proof/Machine/Packer.lean ====
section
/-! DEFINITION. PK_START, PK_WORD, PK_COMMENT and PK_FLUSH (41_stream_packer.md R105, R107, R109, R110). -/

namespace Sys2Proof.Machine

open Sys2Proof Host

/-- PK_START (R105): legal in every packer phase; an open stream is abandoned. -/
def execPkStart (s : State) : Outcome State Fault Refusal :=
  .next (s.openPacker.complete .none)

/-- PK_WORD (R107). -/
def execPkWord (inst : InstCode) (addr : Addr) (ctrl : CtrlCode) (s : State) :
    Outcome State Fault Refusal :=
  requirePacking s (State.packWord (enc inst addr ctrl))

/-- PK_COMMENT (R109): no bits, no counter. -/
def execPkComment (s : State) : Outcome State Fault Refusal :=
  requirePacking s (State.complete .none)

/-- PK_FLUSH (R110). -/
def execPkFlush (s : State) : Outcome State Fault Refusal :=
  requirePacking s State.flushPacker

end Sys2Proof.Machine
end

