-- ==== Sys2Proof/Machine/Unpacker.lean ====
section
/-! DEFINITION. UP_START, UP_BYTE and UP_END (42_stream_unpacker.md R119, R121, R123). -/

namespace Sys2Proof.Machine

open Sys2Proof Host

/-- UP_START (R119): legal in every unpacker phase; an open stream is abandoned. -/
def execUpStart (s : State) : Outcome State Fault Refusal :=
  .next (s.openUnpacker.complete .none)

/-- UP_BYTE (R121). -/
def execUpByte (byte : Byte) (s : State) : Outcome State Fault Refusal :=
  requireUnpacking s (State.unpackByte byte)

/-- UP_END (R123). -/
def execUpEnd (s : State) : Outcome State Fault Refusal :=
  requireUnpacking s State.endUnpacker

end Sys2Proof.Machine
end

