-- ==== Sys2Proof/Machine/WordCodec.lean ====
section
/-! DEFINITION. WENC, WDEC and ACLS (40_word_codec.md R96, R99, R100): legal in every phase, no state written. -/

namespace Sys2Proof.Machine

open Sys2Proof Host

/-- WENC (R96). -/
def execWenc (inst : InstCode) (addr : Addr) (ctrl : CtrlCode) (s : State) :
    Outcome State Fault Refusal :=
  .next (s.complete (.word (encOutput Config.outW inst addr ctrl)))

/-- WDEC (R99). -/
def execWdec (word : BitVec Config.inW) (s : State) : Outcome State Fault Refusal :=
  .next (s.complete (.fields (decInput word)))

/-- ACLS (R100). -/
def execAcls (addr : Addr) (s : State) : Outcome State Fault Refusal :=
  .next (s.complete (.aclass (classify addr)))

end Sys2Proof.Machine
end

