-- ==== Sys2Proof/Machine/WordRows.lean ====
section
/-! DEFINITION. The 16 rows of the word format (30_encoding.md R54 to R69): the codec pass over a word of each
row. The block gives an opcode no other meaning (00_scope.md R5). -/

namespace Sys2Proof.Machine

open Sys2Proof Host

/-- A word of code 0, `nop0` (R54). -/
def execNop0 (addr : Addr) (ctrl : CtrlCode) (s : State) : Outcome State Fault Refusal :=
  .next (s.codecPass 0#4 addr ctrl)

/-- A word of code 1, `ld` (R55). -/
def execLd (addr : Addr) (ctrl : CtrlCode) (s : State) : Outcome State Fault Refusal :=
  .next (s.codecPass 1#4 addr ctrl)

/-- A word of code 2, `add` (R56). -/
def execAdd (addr : Addr) (ctrl : CtrlCode) (s : State) : Outcome State Fault Refusal :=
  .next (s.codecPass 2#4 addr ctrl)

/-- A word of code 3, `sub` (R57). -/
def execSub (addr : Addr) (ctrl : CtrlCode) (s : State) : Outcome State Fault Refusal :=
  .next (s.codecPass 3#4 addr ctrl)

/-- A word of code 4, `one` (R58). -/
def execOne (addr : Addr) (ctrl : CtrlCode) (s : State) : Outcome State Fault Refusal :=
  .next (s.codecPass 4#4 addr ctrl)

/-- A word of code 5, `nand` (R59). -/
def execNand (addr : Addr) (ctrl : CtrlCode) (s : State) : Outcome State Fault Refusal :=
  .next (s.codecPass 5#4 addr ctrl)

/-- A word of code 6, `or` (R60). -/
def execOr (addr : Addr) (ctrl : CtrlCode) (s : State) : Outcome State Fault Refusal :=
  .next (s.codecPass 6#4 addr ctrl)

/-- A word of code 7, `xor` (R61). -/
def execXor (addr : Addr) (ctrl : CtrlCode) (s : State) : Outcome State Fault Refusal :=
  .next (s.codecPass 7#4 addr ctrl)

/-- A word of code 8, `sto` (R62). -/
def execSto (addr : Addr) (ctrl : CtrlCode) (s : State) : Outcome State Fault Refusal :=
  .next (s.codecPass 8#4 addr ctrl)

/-- A word of code 9, `stoc` (R63). -/
def execStoc (addr : Addr) (ctrl : CtrlCode) (s : State) : Outcome State Fault Refusal :=
  .next (s.codecPass 9#4 addr ctrl)

/-- A word of code 10, `ien` (R64). -/
def execIen (addr : Addr) (ctrl : CtrlCode) (s : State) : Outcome State Fault Refusal :=
  .next (s.codecPass 10#4 addr ctrl)

/-- A word of code 11, `oen` (R65). -/
def execOen (addr : Addr) (ctrl : CtrlCode) (s : State) : Outcome State Fault Refusal :=
  .next (s.codecPass 11#4 addr ctrl)

/-- A word of code 12, `ioc` (R66). -/
def execIoc (addr : Addr) (ctrl : CtrlCode) (s : State) : Outcome State Fault Refusal :=
  .next (s.codecPass 12#4 addr ctrl)

/-- A word of code 13, `rtn` (R67). -/
def execRtn (addr : Addr) (ctrl : CtrlCode) (s : State) : Outcome State Fault Refusal :=
  .next (s.codecPass 13#4 addr ctrl)

/-- A word of code 14, `skz` (R68). -/
def execSkz (addr : Addr) (ctrl : CtrlCode) (s : State) : Outcome State Fault Refusal :=
  .next (s.codecPass 14#4 addr ctrl)

/-- A word of code 15, `nopf` (R69). -/
def execNopf (addr : Addr) (ctrl : CtrlCode) (s : State) : Outcome State Fault Refusal :=
  .next (s.codecPass 15#4 addr ctrl)

end Sys2Proof.Machine
end

