-- ==== Sys2Proof/Machine/Dispatch.lean ====
section
/-! DEFINITION. Dispatch: one arm for each constructor of Instr, each one call of its meaning. -/

namespace Sys2Proof.Machine

open Sys2Proof Host

def exec (i : Instr) (s : State) : Host.Outcome State Fault Refusal :=
  match i with
  | .nop0 addr ctrl => Sys2Proof.Machine.execNop0 addr ctrl s
  | .ld addr ctrl => Sys2Proof.Machine.execLd addr ctrl s
  | .add addr ctrl => Sys2Proof.Machine.execAdd addr ctrl s
  | .sub addr ctrl => Sys2Proof.Machine.execSub addr ctrl s
  | .one addr ctrl => Sys2Proof.Machine.execOne addr ctrl s
  | .nand addr ctrl => Sys2Proof.Machine.execNand addr ctrl s
  | .or addr ctrl => Sys2Proof.Machine.execOr addr ctrl s
  | .xor addr ctrl => Sys2Proof.Machine.execXor addr ctrl s
  | .sto addr ctrl => Sys2Proof.Machine.execSto addr ctrl s
  | .stoc addr ctrl => Sys2Proof.Machine.execStoc addr ctrl s
  | .ien addr ctrl => Sys2Proof.Machine.execIen addr ctrl s
  | .oen addr ctrl => Sys2Proof.Machine.execOen addr ctrl s
  | .ioc addr ctrl => Sys2Proof.Machine.execIoc addr ctrl s
  | .rtn addr ctrl => Sys2Proof.Machine.execRtn addr ctrl s
  | .skz addr ctrl => Sys2Proof.Machine.execSkz addr ctrl s
  | .nopf addr ctrl => Sys2Proof.Machine.execNopf addr ctrl s
  | .wenc inst addr ctrl => Sys2Proof.Machine.execWenc inst addr ctrl s
  | .wdec word => Sys2Proof.Machine.execWdec word s
  | .acls addr => Sys2Proof.Machine.execAcls addr s
  | .pkStart => Sys2Proof.Machine.execPkStart s
  | .pkWord inst addr ctrl => Sys2Proof.Machine.execPkWord inst addr ctrl s
  | .pkComment => Sys2Proof.Machine.execPkComment s
  | .pkFlush => Sys2Proof.Machine.execPkFlush s
  | .upStart => Sys2Proof.Machine.execUpStart s
  | .upByte byte => Sys2Proof.Machine.execUpByte byte s
  | .upEnd => Sys2Proof.Machine.execUpEnd s

end Sys2Proof.Machine
end

