-- ==== Sys2Proof/Machine/Step.lean ====
section
/-! DEFINITION. One step of the block (00_scope.md R11), and a request placed to be performed next. -/

namespace Sys2Proof.Machine

open Sys2Proof Host

/-- One step. RESET is accepted in every state and wins over a command issued with it (70_reset_and_hazards.md
R146); a state that has recorded a fault performs no command (60_exceptions.md R134, log entry 5); a reserved
command code is refused (R133); any other request runs the instruction it decodes to. With nothing issued the
block idles (DESIGN CHOICE, log entry 1). -/
def step (s : State) : Outcome State Fault Refusal :=
  match s.fetch with
  | none => if s.stuck then .fault .internalConsistency else .next s.idleStep
  | some (q, t) =>
    if q.rst then .next t.applyReset
    else if s.stuck then .fault .internalConsistency
    else
      match decode q with
      | .ok i => exec i t
      | .error (.reservedCommand _) => .next (t.refuse .reservedCommand)

/-- The state with the table word issued as the next request (log entries 1 and 7). -/
def State.withFetchWord (s : State) (nbits w : Nat) : State :=
  s.issueNext (tableRequest nbits w)

end Sys2Proof.Machine
end

