-- ==== Sys2Proof/Machine/Stream.lean ====
section
/-! DEFINITION. The source's whole-stream functions (41_stream_packer.md R106, 42_stream_unpacker.md R120), the bit
stream of a byte stream (20_memory.md R35), the general forms of the offset tracking (R108, R122), and the
output of a run of commands (R111, R124). -/

namespace Sys2Proof.Machine

open Sys2Proof Host

/-! ## Bits -/

/-- The bits of a value, most significant first (00_scope.md R7, MSB-first). -/
def bitsOf {n : Nat} (v : BitVec n) : List Bool := (List.range n).map (fun i => v.getMsbD i)

/-- The unsigned number that a list of bits spells, first bit most significant. -/
def valueOfBits (bs : List Bool) : Nat := bs.foldl (fun n b => 2 * n + b.toNat) 0

/-- The whole bytes at the front of a bit string, in order; fewer than 8 bits left over are dropped. -/
def bytesOfBits : List Bool → List Byte
  | b7 :: b6 :: b5 :: b4 :: b3 :: b2 :: b1 :: b0 :: rest =>
      BitVec.ofNat 8 (valueOfBits [b7, b6, b5, b4, b3, b2, b1, b0]) :: bytesOfBits rest
  | _ => []

/-- The whole 12-bit groups at the front of a bit string, in order; fewer than 12 bits left over are dropped. -/
def wordsOfBits : List Bool → List Word
  | b11 :: b10 :: b9 :: b8 :: b7 :: b6 :: b5 :: b4 :: b3 :: b2 :: b1 :: b0 :: rest =>
      BitVec.ofNat 12 (valueOfBits [b11, b10, b9, b8, b7, b6, b5, b4, b3, b2, b1, b0]) ::
        wordsOfBits rest
  | _ => []

/-- The bit stream of a byte stream: each byte's bit 7 first (20_memory.md R35). -/
def bitStream (bs : List Byte) : List Bool := bs.flatMap bitsOf

/-- Bit `k` of the bit stream as R35 writes it: `B[floor(k / 8)][7 - (k mod 8)]`. -/
def streamBit (bs : List Byte) (k : Nat) : Option Bool :=
  bs[k / 8]?.map (fun b => b.getLsbD (7 - k % 8))

/-! ## The source's functions -/

/-- The words of a node sequence, Comment nodes dropped (R106). -/
def wordsOfNodes : List Node → List Word
  | [] => []
  | .word i a k :: rest => enc i a k :: wordsOfNodes rest
  | .comment _ :: rest => wordsOfNodes rest

/-- The pad of `n` words: `(8 - (12n mod 8)) mod 8` bits (R106). -/
def padBits (n : Nat) : Nat := (8 - 12 * n % 8) % 8

/-- The words written MSB-first with nothing between them, then the zero pad, as bytes (R106). -/
def encodeWords (ws : List Word) : List Byte :=
  bytesOfBits (ws.flatMap bitsOf ++ List.replicate (padBits ws.length) false)

/-- `encode_stream(N)` (R106). -/
def encodeStream (ns : List Node) : List Byte := encodeWords (wordsOfNodes ns)

/-- `decode_stream(B)` (42_stream_unpacker.md R120). -/
def decodeStream (bs : List Byte) : List DecodedWord := (wordsOfBits (bitStream bs)).map dec

/-! ## Offset tracking in general form (R108, R122) -/

/-- The packer's held bits, first taken first (10_state.md R19). -/
def State.pkHeld (s : State) : List Bool :=
  match s.pkOfs with
  | .zero => []
  | .four => bitsOf s.pkHold

/-- The unpacker's held bits, first received first (10_state.md R25). -/
def State.upHeld (s : State) : List Bool := (bitsOf s.upAcc).drop (8 - s.upN.bits)

/-- R108: append the word's bits to the held bits, emit every complete byte, keep the rest. -/
def generalPack (held : List Bool) (v : Word) : List Byte × List Bool :=
  let all := held ++ bitsOf v
  (bytesOfBits all, all.drop (8 * (all.length / 8)))

/-- R122: append the byte's bits to the held bits, emit every complete word, keep the rest. -/
def generalUnpack (held : List Bool) (b : Byte) : List Word × List Bool :=
  let all := held ++ bitsOf b
  (wordsOfBits all, all.drop (12 * (all.length / 12)))

/-! ## Runs of commands and their outputs -/

/-- The results of a list of commands performed in order, and the state they end in; none if one of them
gives no next state. -/
def runCommands : List Instr → State → Option (List CommandResult × State)
  | [], s => some ([], s)
  | i :: rest, s =>
    match exec i s with
    | .next t =>
      match runCommands rest t with
      | some (rs, u) => some (t.result :: rs, u)
      | none => none
    | .fault _ => none
    | .refused _ => none

/-- The bytes a result delivers on `out_bytes`. -/
def CommandResult.bytesOut : CommandResult → List Byte
  | .completed (.bytes bs) => bs
  | _ => []

/-- The decoded words a result delivers on `out_words`. -/
def CommandResult.wordsOut : CommandResult → List DecodedWord
  | .completed (.words ws) => ws
  | _ => []

/-- The output of a packing stream: its responses' bytes in command order (R111). -/
def packOutput (rs : List CommandResult) : List Byte := rs.flatMap CommandResult.bytesOut

/-- The output of an unpacking stream: its responses' words in command order (R124). -/
def unpackOutput (rs : List CommandResult) : List DecodedWord := rs.flatMap CommandResult.wordsOut

/-- The command that packs a node (30_encoding.md R95). -/
def packNode : Node → Instr
  | .word i a k => .pkWord i a k
  | .comment _ => .pkComment

/-- The commands that pack a node sequence as one stream (R95, R116). -/
def packCommands (ns : List Node) : List Instr := [.pkStart] ++ ns.map packNode ++ [.pkFlush]

/-- The commands that unpack a byte sequence as one stream (R131). -/
def unpackCommands (bs : List Byte) : List Instr := [.upStart] ++ bs.map .upByte ++ [.upEnd]

/-- The Word node of a decoded word, its class left out (R129, R130). -/
def nodeOfDecoded (d : DecodedWord) : Node := .word d.inst d.addr d.ctrl

/-- A command of the packer (R81). -/
def isPackerCommand : Instr → Bool
  | .pkStart | .pkWord _ _ _ | .pkComment | .pkFlush => true
  | .nop0 _ _ | .ld _ _ | .add _ _ | .sub _ _ | .one _ _ | .nand _ _ | .or _ _ | .xor _ _
  | .sto _ _ | .stoc _ _ | .ien _ _ | .oen _ _ | .ioc _ _ | .rtn _ _ | .skz _ _ | .nopf _ _
  | .wenc _ _ _ | .wdec _ | .acls _ | .upStart | .upByte _ | .upEnd => false

/-- A command of the unpacker (R81). -/
def isUnpackerCommand : Instr → Bool
  | .upStart | .upByte _ | .upEnd => true
  | .nop0 _ _ | .ld _ _ | .add _ _ | .sub _ _ | .one _ _ | .nand _ _ | .or _ _ | .xor _ _
  | .sto _ _ | .stoc _ _ | .ien _ _ | .oen _ _ | .ioc _ _ | .rtn _ _ | .skz _ _ | .nopf _ _
  | .wenc _ _ _ | .wdec _ | .acls _ | .pkStart | .pkWord _ _ _ | .pkComment | .pkFlush => false

end Sys2Proof.Machine
end

