-- ==== Sys2Proof/Machine/Assembler.lean ====
section
/-! DEFINITION. The toolchain's assembly language (30_encoding.md section 8, R84 to R95): numeral lexer, line parser,
errors, fixed-width rendering, and the commands a text becomes. It is NOT part of the block (00_scope.md R3) and
no step calls it. What the source leaves open comes from `AsmParams`. -/

namespace Sys2Proof.Machine

open Sys2Proof

/-! ## Numerals (R87, R88) -/

/-- The value of a digit character, 0 to 15; none if it is no hexadecimal digit. -/
def digitValue (c : Char) : Option Nat :=
  let n := c.toNat
  if 48 ≤ n ∧ n ≤ 57 then some (n - 48)
  else if 65 ≤ n ∧ n ≤ 70 then some (n - 55)
  else if 97 ≤ n ∧ n ≤ 102 then some (n - 87)
  else none

/-- The number spelled by more digits after the value `acc`; none if one is no digit of the base. -/
def digitsFrom (base acc : Nat) : List Char → Option Nat
  | [] => some acc
  | c :: rest =>
    match digitValue c with
    | some d => if d < base then digitsFrom base (base * acc + d) rest else none
    | none => none

/-- A numeral of one base: `0`, the base's mark, one or more digits of the base (R87). -/
def numeralOfBase (upperToo : Bool) (mark : Char) (base : Nat) : List Char → Option Nat
  | '0' :: m :: d :: rest =>
    if m = mark || (upperToo && m == mark.toUpper) then digitsFrom base 0 (d :: rest) else none
  | _ => none

/-- A numeral: binary, then octal, then hexadecimal, "accepting the first that matches" (R88). -/
def numeral (p : AsmParams) (tok : List Char) : Option Nat :=
  match numeralOfBase p.upperBaseMark 'b' 2 tok with
  | some n => some n
  | none =>
    match numeralOfBase p.upperBaseMark 'o' 8 tok with
    | some n => some n
    | none => numeralOfBase p.upperBaseMark 'h' 16 tok

/-- The field value of a numeral, by `ASM_FIELD_OVERFLOW` when it is too large (R87, D21). -/
def fieldValue (p : AsmParams) (width n : Nat) : Option (BitVec width) :=
  if n < 2 ^ width then some (BitVec.ofNat width n)
  else
    match p.fieldOverflow with
    | .reject => none
    | .mask => some (BitVec.ofNat width n)

/-! ## Mnemonics (R86) -/

/-- The letters of a mnemonic in the toolchain's table (I1; DESIGN CHOICE, log entry 10). -/
def spelling (p : AsmParams) (o : Opcode) : List Char := p.mnemonics.labels.spelling o

/-- The variant a mnemonic names: its full literal, in any case (R86, 90_conflicts.md C1). The table's 16 names are
distinct by its type, so at most one variant matches. -/
def mnemonicOf (p : AsmParams) (tok : List Char) : Option Opcode :=
  allOpcodes.find? (fun o => decide (tok.map Char.toLower = spelling p o))

/-! ## Lines -/

/-- A line of the text: its characters without the line's end, the offset of its first character, and whether a
newline ended it (the last line may end with the input, R84). -/
structure SourceLine where
  text : List Char
  start : Nat
  ended : Bool
deriving DecidableEq, Repr

/-- An error: the construct that was expected, and the offset of the failure point (R92). -/
structure AsmError where
  kind : AsmErrorKind
  offset : Nat
deriving DecidableEq, Repr

/-- What one character adds to an offset (N14). Where the unit is bytes, they are the character's bytes in UTF-8; the
spec names no text encoding (DESIGN CHOICE, log entry 11). -/
def charWidth (p : AsmParams) (c : Char) : Nat :=
  match p.offsetUnit with
  | .chars => 1
  | .bytes => c.utf8Size

/-- What a run of characters adds to an offset. -/
def textWidth (p : AsmParams) (cs : List Char) : Nat := (cs.map (charWidth p)).sum

/-- A line's characters from their reversed list, without a carriage return that belongs to its end (D28). -/
def lineText (p : AsmParams) : List Char → List Char
  | '\r' :: rest => if p.crlfEndsLine then rest.reverse else ('\r' :: rest).reverse
  | cs => cs.reverse

/-- The lines of a text; `cur` holds the open line's characters reversed. -/
def linesFrom (p : AsmParams) (cur : List Char) (start pos : Nat) : List Char → List SourceLine
  | [] => if cur.isEmpty then [] else [⟨cur.reverse, start, false⟩]
  | c :: rest =>
    let pos' := pos + charWidth p c
    if c = '\n' then ⟨lineText p cur, start, true⟩ :: linesFrom p [] pos' pos' rest
    else linesFrom p (c :: cur) start pos' rest

/-- A character that separates fields: a space, and a tab by `ASM_SEPARATORS` (R85, D28). -/
def isSeparator (p : AsmParams) (c : Char) : Bool := c == ' ' || (p.tabSeparates && c == '\t')

/-- A blank line (R91, N12). -/
def isBlankLine (p : AsmParams) (l : SourceLine) : Bool :=
  l.text.isEmpty || (p.blankMayHoldSeparators && l.text.all (isSeparator p))

/-- The lines of a program, the blank lines around it trimmed (R84, R91). Each line keeps its offset in the text as
given: an error's offset counts from the start of that text and so includes the leading blank lines trimmed here,
which R91 ("before/after parsing") and R92 leave open (DESIGN CHOICE, log entry 11). -/
def contentLines (p : AsmParams) (text : List Char) : List SourceLine :=
  (((linesFrom p [] 0 0 text).dropWhile (isBlankLine p)).reverse.dropWhile (isBlankLine p)).reverse

/-- A comment's stored text, "right-trimmed of trailing whitespace but not left-trimmed" (R90). -/
def trimRight (cs : List Char) : List Char := (cs.reverse.dropWhile Char.isWhitespace).reverse

/-- A field of a word line: the characters before the next separator, and the rest. -/
def takeField (p : AsmParams) (cs : List Char) : List Char × List Char :=
  (cs.takeWhile (fun c => !isSeparator p c), cs.dropWhile (fun c => !isSeparator p c))

/-- One numeral field of a word line: its value and what follows it, or the error at its place (R92). -/
def numeralField (p : AsmParams) (width : Nat) (kind : AsmErrorKind) (ended : Bool) (offset : Nat)
    (cs : List Char) : Except AsmError (BitVec width × List Char) :=
  let tok := (takeField p cs).1
  if tok.isEmpty then .error ⟨if ended then kind else .unexpectedEoi, offset⟩
  else
    match numeral p tok with
    | none => .error ⟨kind, offset⟩
    | some n =>
      match fieldValue p width n with
      | none => .error ⟨kind, offset⟩
      | some v => .ok (v, (takeField p cs).2)

/-- What may follow the control numeral: nothing, or separators where N9 is read so. -/
def lineRestOk (p : AsmParams) (cs : List Char) : Bool :=
  cs.isEmpty || (p.trailingSeparators && cs.all (isSeparator p))

/-- A word line: mnemonic, separators, address, separators, control, line end (R84, R85). -/
def parseWordLine (p : AsmParams) (l : SourceLine) : Except AsmError Node :=
  let stop := l.start + textWidth p l.text
  match mnemonicOf p (takeField p l.text).1 with
  | none => .error ⟨.expectedInst, l.start⟩
  | some o =>
    let afterInst := (takeField p l.text).2.dropWhile (isSeparator p)
    match numeralField p 6 .expectedAddr l.ended (stop - textWidth p afterInst) afterInst with
    | .error e => .error e
    | .ok (a, rest) =>
      let afterAddr := rest.dropWhile (isSeparator p)
      match numeralField p 2 .expectedCtrl l.ended (stop - textWidth p afterAddr) afterAddr with
      | .error e => .error e
      | .ok (k, tail) =>
        if lineRestOk p tail then .ok (.word o.code a k)
        else .error ⟨p.leftoverKind, stop - textWidth p tail⟩

/-- A line of a program: a comment line starts at `;`, any other is a word line (R84, R90). A comment may end
at the end of the input (90_conflicts.md C4). A blank line between content lines is no line of the grammar
(R91) and fails as a word line without a mnemonic (errors R92 does not settle: DESIGN CHOICE, log entry 11). -/
def parseLine (p : AsmParams) (l : SourceLine) : Except AsmError Node :=
  match l.text with
  | ';' :: text => .ok (.comment (trimRight text))
  | _ => parseWordLine p l

/-- The nodes of the lines, or the first error: "no partial-result recovery" (R92). -/
def parseLines (p : AsmParams) : List SourceLine → Except AsmError (List Node)
  | [] => .ok []
  | l :: rest =>
    match parseLine p l with
    | .error e => .error e
    | .ok n =>
      match parseLines p rest with
      | .error e => .error e
      | .ok ns => .ok (n :: ns)

/-- `parse_assembly(text)` (R95). -/
def parseAssembly (p : AsmParams) (text : List Char) : Except AsmError (List Node) :=
  parseLines p (contentLines p text)

/-- The block's commands for a program text (R95), with the toolchain's own parameters. -/
def assembleCommands (text : List Char) : Except AsmError (List Instr) :=
  match parseAssembly Config.asmParams text with
  | .error e => .error e
  | .ok ns => .ok (packCommands ns)

/-! ## Rendering (R94): presentation, zero-padded to fixed width -/

/-- The digit character of 0 to 7. -/
def digitChar (n : Nat) : Char := Char.ofNat (48 + n)

/-- A value in binary, one digit a bit, most significant first. -/
def renderBinary {n : Nat} (v : BitVec n) : List Char :=
  (bitsOf v).map (fun b => if b then '1' else '0')

/-- A value in octal with a fixed number of digits, most significant first. -/
def renderOctal (digits n : Nat) : List Char :=
  ((List.range digits).map (fun i => digitChar (n / 8 ^ i % 8))).reverse

/-- The instruction field: 4-bit binary and 2-digit octal. -/
def renderInst (c : InstCode) : List Char × List Char := (renderBinary c, renderOctal 2 c.toNat)

/-- The address field: 6-bit binary and 2-digit octal. -/
def renderAddr (a : Addr) : List Char × List Char := (renderBinary a, renderOctal 2 a.toNat)

/-- The control field: 2-bit binary and 1-digit octal. -/
def renderCtrl (k : CtrlCode) : List Char × List Char := (renderBinary k, renderOctal 1 k.toNat)

end Sys2Proof.Machine
end

