-- ==== Sys2Proof/Safety.lean ====
section
/-! DEFINITION. What counts as a good state and a good run, in the terms statements use: the units' invariants
(10_state.md R19, R22, R25, R28), the marks (R31), the end of a stream (70_reset_and_hazards.md R153), and the
states a host can bring the block to. -/

namespace Sys2Proof.Machine

open Sys2Proof Host

/-- The packer's invariant, phase by phase (R19, R22). R22's first clause is stated where it holds: while the
phase is not DONE (DEDUCED, log entry 8). -/
def State.PackerInv (s : State) : Prop :=
  match s.pkPhase with
  | .idle => s.pkOfs = .zero ∧ s.pkHold = 0#4 ∧ s.pkCnt = 0 ∧ s.pkNbytes = 0
  | .active => 8 * s.pkNbytes + s.pkOfs.bits = 12 * s.pkCnt ∧ (s.pkOfs = .zero → s.pkHold = 0#4)
  | .done => s.pkOfs = .zero ∧ s.pkHold = 0#4 ∧ s.pkNbytes = (12 * s.pkCnt + 7) / 8

/-- The unpacker's invariant, phase by phase (R25, R28). -/
def State.UnpackerInv (s : State) : Prop :=
  match s.upPhase with
  | .idle => s.upN = .zero ∧ s.upAcc = 0#8 ∧ s.upNbytes = 0 ∧ s.upCnt = 0
  | .active => 8 * s.upNbytes = 12 * s.upCnt + s.upN.bits ∧ s.upAcc.toNat < 2 ^ s.upN.bits
  | .done => s.upN = .zero ∧ s.upAcc = 0#8 ∧ s.upCnt = 8 * s.upNbytes / 12

/-- No fault is recorded (R134: with total tables no command records one). -/
def State.NoFault (s : State) : Prop := s.faults = []

/-- The invariant of the block. -/
def State.Inv (s : State) : Prop := s.PackerInv ∧ s.UnpackerInv ∧ s.NoFault

/-- The unit fields of the packer (R30). -/
def State.packerFields (s : State) : StreamPhase × PkOfs × BitVec 4 × Nat × Nat :=
  (s.pkPhase, s.pkOfs, s.pkHold, s.pkCnt, s.pkNbytes)

/-- The unit fields of the unpacker (R30). -/
def State.unpackerFields (s : State) : StreamPhase × UpN × BitVec 8 × Nat × Nat :=
  (s.upPhase, s.upN, s.upAcc, s.upNbytes, s.upCnt)

/-- The bookkeeping marks (R31). -/
def State.marks (s : State) : Bool × List Fault := (s.refused, s.faults)

/-- Every field of R13: the block without the model's own fields. -/
def State.block (s : State) :
    (StreamPhase × PkOfs × BitVec 4 × Nat × Nat) × (StreamPhase × UpN × BitVec 8 × Nat × Nat) ×
      (Bool × List Fault) :=
  (s.packerFields, s.unpackerFields, s.marks)

/-- A packing stream has ended and its output is final (R153). It is the phase alone: of a block that has recorded a
fault R153 says nothing, and the phase is read there too (DESIGN CHOICE, log entry 5). -/
def State.packingEnded (s : State) : Prop := s.pkPhase = .done

/-- An unpacking stream has ended (R153), by the phase alone, also in a block that has recorded a fault (DESIGN
CHOICE, log entry 5). -/
def State.unpackingEnded (s : State) : Prop := s.upPhase = .done

/-- The command is accepted only while a packing stream is open (R17, 60_exceptions.md R133). -/
def needsPacking : Instr → Bool
  | .pkWord _ _ _ | .pkComment | .pkFlush => true
  | .nop0 _ _ | .ld _ _ | .add _ _ | .sub _ _ | .one _ _ | .nand _ _ | .or _ _ | .xor _ _
  | .sto _ _ | .stoc _ _ | .ien _ _ | .oen _ _ | .ioc _ _ | .rtn _ _ | .skz _ _ | .nopf _ _
  | .wenc _ _ _ | .wdec _ | .acls _ | .pkStart | .upStart | .upByte _ | .upEnd => false

/-- The command is accepted only while an unpacking stream is open (R23, 60_exceptions.md R133). -/
def needsUnpacking : Instr → Bool
  | .upByte _ | .upEnd => true
  | .nop0 _ _ | .ld _ _ | .add _ _ | .sub _ _ | .one _ _ | .nand _ _ | .or _ _ | .xor _ _
  | .sto _ _ | .stoc _ _ | .ien _ _ | .oen _ _ | .ioc _ _ | .rtn _ _ | .skz _ _ | .nopf _ _
  | .wenc _ _ _ | .wdec _ | .acls _ | .pkStart | .pkWord _ _ _ | .pkComment | .pkFlush | .upStart =>
      false

/-- The command needs an open stream its unit does not have: R133's second case. -/
def State.wrongPhase (s : State) (i : Instr) : Prop :=
  (needsPacking i = true ∧ s.pkPhase ≠ .active) ∨ (needsUnpacking i = true ∧ s.upPhase ≠ .active)

/-- The states of a run (R147): the launch state, what a step answers, and what the host makes of a state by
issuing a request. -/
inductive Reachable : State → Prop where
  | launch : Reachable State.reset
  | step {s t : State} : Reachable s → step s = .next t → Reachable t
  | issue {s : State} (q : Request) : Reachable s → Reachable (s.issue q)

/-- A run in which no command was refused and no fault recorded: the premise a claim about a run must carry
(60_exceptions.md R135). -/
def State.Clean (s : State) : Prop := s.refused = false ∧ s.faults = []

end Sys2Proof.Machine
end

