-- ==== Sys2Proof/Certificates/Slice0/Obligations.lean ====
section
/-! DEFINITION. The statements for the provers, in the order of OBLIGATIONS.json. -/

open Sys2Proof Sys2Proof.Machine Host

/-! ## The word format and the field tables -/

/-- 30_encoding.md R49: the word's value by the source's formula, its fields' places, and the decoder's fields. -/
def Obligations.WordFormatFields : Prop :=
  (∀ (i : InstCode) (a : Addr) (k : CtrlCode),
    (enc i a k).toNat = (i.toNat <<< 8) ||| (a.toNat <<< 2) ||| k.toNat ∧ enc i a k = i ++ a ++ k) ∧
  ∀ v : Word,
    (∀ n, n < 4 → (instField v).getLsbD n = v.getLsbD (8 + n)) ∧
    (∀ n, n < 6 → (addrField v).getLsbD n = v.getLsbD (2 + n)) ∧
    (∀ n, n < 2 → (ctrlField v).getLsbD n = v.getLsbD n)

/-- What one of R54 to R69 says of its row: code, mnemonic, pattern, match under the mask `0xF00` (both ways), the
encoding and the decoding of its words. -/
def Sys2Proof.Machine.WordRowStated (o : Opcode) (c : InstCode) (name : String) (m : Word)
    (row : Addr → CtrlCode → Instr) : Prop :=
  o.code = c ∧ o.mnemonic = name ∧
  (∀ a k, enc c a k = c ++ a ++ k ∧ enc c a k &&& 0xF00#12 = m ∧
    encode (row a k) = .word ((c ++ a ++ k : BitVec 12).setWidth 32) ∧ (row a k).row.mnemonic = name) ∧
  ∀ v : Word, v &&& 0xF00#12 = m ↔ ∃ a k, decodeWord v = row a k ∧ v = c ++ a ++ k

/-- 30_encoding.md R54 to R61: codes 0 to 7, each with its rule's example word. -/
def Obligations.WordRowsZeroToSeven : Prop :=
  (WordRowStated .nop0 0 "nop0" 0x000 .nop0 ∧ enc 0 0o77 1 = 0x0FD) ∧
  (WordRowStated .ld 1 "ld" 0x100 .ld ∧ enc 1 0o01 0 = 0x104) ∧
  (WordRowStated .add 2 "add" 0x200 .add ∧ enc 2 0o02 0 = 0x208) ∧
  (WordRowStated .sub 3 "sub" 0x300 .sub ∧ enc 3 0o03 0 = 0x30C) ∧
  (WordRowStated .one 4 "one" 0x400 .one ∧ enc 4 0o77 0 = 0x4FC ∧ classify 63 = .lowInput) ∧
  (WordRowStated .nand 5 "nand" 0x500 .nand ∧ enc 5 0o05 0 = 0x514) ∧
  (WordRowStated .or 6 "or" 0x600 .or ∧ enc 6 0o06 0 = 0x618) ∧
  (WordRowStated .xor 7 "xor" 0x700 .xor ∧ enc 7 0o07 0 = 0x71C)

/-- 30_encoding.md R62 to R69: codes 8 to 15, each with its rule's example word. -/
def Obligations.WordRowsEightToFifteen : Prop :=
  (WordRowStated .sto 8 "sto" 0x800 .sto ∧ enc 8 0o10 0 = 0x820) ∧
  (WordRowStated .stoc 9 "stoc" 0x900 .stoc ∧ enc 9 0o50 0 = 0x9A0 ∧ classify 40 = .parallelRead) ∧
  (WordRowStated .ien 10 "ien" 0xA00 .ien ∧ enc 10 0o12 0 = 0xA28) ∧
  (WordRowStated .oen 11 "oen" 0xB00 .oen ∧ enc 11 0o13 0 = 0xB2C) ∧
  (WordRowStated .ioc 12 "ioc" 0xC00 .ioc ∧ enc 12 0o14 0 = 0xC30) ∧
  (WordRowStated .rtn 13 "rtn" 0xD00 .rtn ∧ enc 13 0o15 0 = 0xD34) ∧
  (WordRowStated .skz 14 "skz" 0xE00 .skz ∧ enc 14 0o16 0 = 0xE38) ∧
  (WordRowStated .nopf 15 "nopf" 0xF00 .nopf ∧ enc 15 0o77 3 = 0xFFF)

/-- The model's choice (log entry 3): a word row takes a step as the codec's pass over its word, encoded by
40_word_codec.md R96 and decoded by R99 as 30_encoding.md R53 says, in every state; nothing else changes. -/
def Obligations.WordRowsPassTheCodec : Prop :=
  ∀ (a : Addr) (k : CtrlCode) (s : State),
    let passed := fun (c : InstCode) => Outcome.next (φ := Fault) (ρ := Refusal)
      { s with result := .completed (.codec ((c ++ a ++ k : BitVec 12).setWidth 32)
          { inst := c, addr := a, ctrl := k, aclass := classify a }) }
    exec (.nop0 a k) s = passed 0 ∧ exec (.ld a k) s = passed 1 ∧
    exec (.add a k) s = passed 2 ∧ exec (.sub a k) s = passed 3 ∧
    exec (.one a k) s = passed 4 ∧ exec (.nand a k) s = passed 5 ∧
    exec (.or a k) s = passed 6 ∧ exec (.xor a k) s = passed 7 ∧
    exec (.sto a k) s = passed 8 ∧ exec (.stoc a k) s = passed 9 ∧
    exec (.ien a k) s = passed 10 ∧ exec (.oen a k) s = passed 11 ∧
    exec (.ioc a k) s = passed 12 ∧ exec (.rtn a k) s = passed 13 ∧
    exec (.skz a k) s = passed 14 ∧ exec (.nopf a k) s = passed 15

/-- 30_encoding.md R71, R72: the seven ranges, their class codes, code 7 never produced, and the class of every
address as R72's chain of ranges gives it. -/
def Obligations.ClassRanges : Prop :=
  (∀ a : Addr,
    (a.toNat ≤ 39 → (classify a).code = 0) ∧
    (40 ≤ a.toNat ∧ a.toNat ≤ 47 → (classify a).code = 1) ∧
    (48 ≤ a.toNat ∧ a.toNat ≤ 55 → (classify a).code = 2) ∧
    (a.toNat = 56 → (classify a).code = 3) ∧
    (a.toNat = 57 → (classify a).code = 4) ∧
    (58 ≤ a.toNat ∧ a.toNat ≤ 59 → (classify a).code = 5) ∧
    (60 ≤ a.toNat → (classify a).code = 6) ∧
    (classify a).code ≠ 7 ∧ classify a = classifyByRanges a) ∧
  (AClass.general.name = "general" ∧ AClass.parallelRead.name = "parallel read" ∧
    AClass.externalInput.name = "external input" ∧ AClass.qrr.name = "QRR" ∧ AClass.rr.name = "RR" ∧
    AClass.highInput.name = "high input" ∧ AClass.lowInput.name = "low input / high-z") ∧
  (AClass.general.code = 0 ∧ AClass.parallelRead.code = 1 ∧ AClass.externalInput.code = 2 ∧
    AClass.qrr.code = 3 ∧ AClass.rr.code = 4 ∧ AClass.highInput.code = 5 ∧ AClass.lowInput.code = 6)

/-- 40_word_codec.md R97, R103 and 30_encoding.md R53, R73: the instruction and control tables are bijections
between variants and codes, with the control variants in the list order of R73. -/
def Obligations.FieldTablesBijective : Prop :=
  (∀ o : Opcode, Opcode.ofCode o.code = o) ∧ (∀ c : InstCode, (Opcode.ofCode c).code = c) ∧
  (∀ v : CtrlVariant, CtrlVariant.ofCode v.code = v) ∧ (∀ c : CtrlCode, (CtrlVariant.ofCode c).code = c) ∧
  CtrlVariant.null.code = 0 ∧ CtrlVariant.copyAndShiftOut.code = 1 ∧
  CtrlVariant.undefined.code = 2 ∧ CtrlVariant.stopTape.code = 3

/-! ## WENC, WDEC, ACLS -/

/-- 40_word_codec.md R96: WENC in every state, every input legal, no state written; the output's bits 12 and up
are 0 at every width, and the fields never overlap. -/
def Obligations.WencResult : Prop :=
  ∀ (i : InstCode) (a : Addr) (k : CtrlCode) (s : State),
    encode (.wenc i a k) = .ports ⟨false, 0x1, i, a, k, 0, 0⟩ ∧
    exec (.wenc i a k) s =
      .next { s with
        result := .completed (.word
          (((i.setWidth 12 <<< 8) ||| (a.setWidth 12 <<< 2) ||| k.setWidth 12).setWidth 32)) } ∧
    (∀ m, 12 ≤ m → (encOutput m i a k).toNat = i.toNat * 256 + a.toNat * 4 + k.toNat) ∧
    enc 0 0 0 = 0x000 ∧ enc 15 63 3 = 0xFFF ∧ enc 4 63 0 = 0x4FC

/-- 40_word_codec.md R99: WDEC in every state, for every input; bits 12 and up do not affect any output. -/
def Obligations.WdecResult : Prop :=
  (∀ (x : BitVec Config.inW) (s : State),
    encode (.wdec x) = .ports ⟨false, 0x2, 0, 0, 0, x, 0⟩ ∧
    exec (.wdec x) s =
      .next { s with
        result := .completed (.fields
          { inst := x.extractLsb' 8 4, addr := x.extractLsb' 2 6, ctrl := x.extractLsb' 0 2,
            aclass := classify (x.extractLsb' 2 6) }) }) ∧
  (∀ (x y : BitVec Config.inW) (s : State), x.setWidth 12 = y.setWidth 12 →
    exec (.wdec x) s = exec (.wdec y) s) ∧
  decInput (0xFFFFFFFF : BitVec 32) = ⟨15, 63, 3, .lowInput⟩ ∧
  decInput (0x9A0 : BitVec 32) = ⟨9, 40, 0, .parallelRead⟩

/-- 40_word_codec.md R100: ACLS in every state, for every address, with the class boundaries. -/
def Obligations.AclsResult : Prop :=
  (∀ (a : Addr) (s : State),
    encode (.acls a) = .ports ⟨false, 0x3, 0, a, 0, 0, 0⟩ ∧
    exec (.acls a) s = .next { s with result := .completed (.aclass (classify a)) }) ∧
  [classify 0, classify 39, classify 40, classify 47, classify 48, classify 55, classify 56, classify 57,
    classify 58, classify 59, classify 60, classify 63].map AClass.code =
    [0, 0, 1, 1, 2, 2, 3, 4, 5, 5, 6, 6]

/-- 40_word_codec.md R101 (the spec marks it as derived): in every state, WDEC of what WENC delivers gives the three fields back, and each
field's own encode and decode round trip. -/
def Obligations.FieldRoundTrips : Prop :=
  (∀ (i : InstCode) (a : Addr) (k : CtrlCode) (s : State), ∃ w t u,
    exec (.wenc i a k) s = .next t ∧ t.result = .completed (.word w) ∧
    exec (.wdec (w.setWidth Config.inW)) t = .next u ∧
    u.result = .completed (.fields { inst := i, addr := a, ctrl := k, aclass := classify a })) ∧
  (∀ c : InstCode, (Opcode.ofCode c).code = c) ∧ (∀ c : CtrlCode, (CtrlVariant.ofCode c).code = c)

/-- 40_word_codec.md R102 (the spec marks it as derived), for every decoder width `IN_W ≥ 12`. -/
def Obligations.WordRoundTrips : Prop :=
  (∀ (i : InstCode) (a : Addr) (k : CtrlCode), dec (enc i a k) = ⟨i, a, k, classify a⟩) ∧
  ∀ n, 12 ≤ n →
    (∀ x : BitVec n,
      let v := enc (decInput x).inst (decInput x).addr (decInput x).ctrl
      v = x.extractLsb' 0 12 ∧ v.toNat = x.toNat % 0x1000 ∧ (v.setWidth n = x ↔ x.toNat < 0x1000)) ∧
    (∀ v w : Word, dec v = dec w → v = w) ∧
    (12 < n → ∃ x y : BitVec n, x ≠ y ∧ decInput x = decInput y)

/-- 40_word_codec.md R104: the word commands complete in every phase of both units and change no field of R13. -/
def Obligations.WordCommandsTouchNoStream : Prop :=
  ∀ (i : InstCode) (a : Addr) (k : CtrlCode) (x : BitVec Config.inW) (s : State), ∃ t u v,
    exec (.wenc i a k) s = .next t ∧ exec (.wdec x) s = .next u ∧ exec (.acls a) s = .next v ∧
    t.block = s.block ∧ u.block = s.block ∧ v.block = s.block ∧
    t.input = s.input ∧ u.input = s.input ∧ v.input = s.input

/-! ## Decoding and encoding requests -/

/-- Decode and encode agree on every instruction, with every operand value. -/
def Obligations.DecodeOfEncode : Prop :=
  ∀ i : Instr, i.wellFormed = true → decode (encode i) = .ok i

/-- The other direction: a request that decodes to an instruction is that instruction's encoding, but for the word
input's bits 12 and up and the operand inputs the command does not use, which decoding ignores. -/
def Obligations.EncodeOfDecode : Prop :=
  (∀ x : BitVec Config.inW, ∃ i, decode (.word x) = .ok i ∧ encode i = .word (x &&& 0xFFF)) ∧
  (∀ (p : Ports) (i : Instr), decode (.ports p) = .ok i → encode i = .ports p.usedInputs) ∧
  ∀ p : Ports, decode (.ports p) = decode (.ports p.usedInputs)

/-- 30_encoding.md R81: each command code selects its command. -/
def Obligations.CommandCodes : Prop :=
  ∀ p : Ports,
    ((p.cmd = 0x0 ∨ 0xB ≤ p.cmd.toNat) → decode (.ports p) = .error (.reservedCommand p.cmd)) ∧
    (p.cmd = 0x1 → decode (.ports p) = .ok (.wenc p.inInst p.inAddr p.inCtrl)) ∧
    (p.cmd = 0x2 → decode (.ports p) = .ok (.wdec p.inWord)) ∧
    (p.cmd = 0x3 → decode (.ports p) = .ok (.acls p.inAddr)) ∧
    (p.cmd = 0x4 → decode (.ports p) = .ok .pkStart) ∧
    (p.cmd = 0x5 → decode (.ports p) = .ok (.pkWord p.inInst p.inAddr p.inCtrl)) ∧
    (p.cmd = 0x6 → decode (.ports p) = .ok .pkComment) ∧
    (p.cmd = 0x7 → decode (.ports p) = .ok .pkFlush) ∧
    (p.cmd = 0x8 → decode (.ports p) = .ok .upStart) ∧
    (p.cmd = 0x9 → decode (.ports p) = .ok (.upByte p.inByte)) ∧
    (p.cmd = 0xA → decode (.ports p) = .ok .upEnd)

/-- 30_encoding.md R82: a reserved command code is refused with `ReservedCommand`; nothing changes but the mark. -/
def Obligations.ReservedCommandRefused : Prop :=
  ∀ (s : State) (p : Ports) (rest : List Request),
    s.input = .ports p :: rest → p.rst = false → s.faults = [] →
    (p.cmd = 0x0 ∨ 0xB ≤ p.cmd.toNat) →
    step s = .next { s with input := rest, refused := true, result := .refused .reservedCommand }

/-- Four words written out from 30_encoding.md R54, R58, R63, R69 and three command codes from R81 decode to what they
stand for, and two reserved codes to nothing. That a number of 16 bits is a word, and one of 8 bits a command whose
later ports are 0, is the model's layout (DESIGN CHOICE, log entry 7). -/
def Obligations.WrittenWordsDecode : Prop :=
  decodeTableWord 16 0b000011111101 = some (.nop0 0b111111 0b01) ∧
  decodeTableWord 16 0b010011111100 = some (.one 0b111111 0b00) ∧
  decodeTableWord 16 0b100110100000 = some (.stoc 0b101000 0b00) ∧
  decodeTableWord 16 0b111111111111 = some (.nopf 0b111111 0b11) ∧
  decodeTableWord 8 0b0001 = some (.wenc 0 0 0) ∧
  decodeTableWord 8 0b0101 = some (.pkWord 0 0 0) ∧
  decodeTableWord 8 0b1010 = some .upEnd ∧
  decodeTableWord 8 0b0000 = none ∧ decodeTableWord 8 0b1011 = none

/-! ## The packer's commands -/

/-- 41_stream_packer.md R105: PK_START in every state. -/
def Obligations.PkStartResult : Prop :=
  encode .pkStart = .ports ⟨false, 0x4, 0, 0, 0, 0, 0⟩ ∧
  ∀ s : State,
    exec .pkStart s =
      .next { s with
        pkPhase := .active, pkOfs := .zero, pkHold := 0, pkCnt := 0, pkNbytes := 0
        result := .completed .none }

/-- 41_stream_packer.md R107: PK_WORD at both offsets of an open stream, and refused outside one. -/
def Obligations.PkWordResult : Prop :=
  ∀ (i : InstCode) (a : Addr) (k : CtrlCode) (s : State),
    let v : Word := (i.setWidth 12 <<< 8) ||| (a.setWidth 12 <<< 2) ||| k.setWidth 12
    encode (.pkWord i a k) = .ports ⟨false, 0x5, i, a, k, 0, 0⟩ ∧
    (s.pkPhase = .active → s.pkOfs = .zero →
      exec (.pkWord i a k) s =
        .next { s with
          pkHold := v.extractLsb' 0 4, pkOfs := .four
          pkNbytes := s.pkNbytes + 1, pkCnt := s.pkCnt + 1
          result := .completed (.bytes [v.extractLsb' 4 8]) }) ∧
    (s.pkPhase = .active → s.pkOfs = .four →
      exec (.pkWord i a k) s =
        .next { s with
          pkHold := 0, pkOfs := .zero, pkNbytes := s.pkNbytes + 2, pkCnt := s.pkCnt + 1
          result := .completed (.bytes [s.pkHold ++ v.extractLsb' 8 4, v.extractLsb' 0 8]) }) ∧
    (s.pkPhase ≠ .active →
      exec (.pkWord i a k) s = .next { s with refused := true, result := .refused .noOpenStream })

/-- 41_stream_packer.md R109: PK_COMMENT in an open stream writes nothing; outside one it is refused; any number of
them before any commands of an open stream leaves the output and the block as they would be; a comment-only stream
emits nothing. -/
def Obligations.PkCommentResult : Prop :=
  encode .pkComment = .ports ⟨false, 0x6, 0, 0, 0, 0, 0⟩ ∧
  ∀ s : State,
    (s.pkPhase = .active → exec .pkComment s = .next { s with result := .completed .none }) ∧
    (s.pkPhase ≠ .active →
      exec .pkComment s = .next { s with refused := true, result := .refused .noOpenStream }) ∧
    (s.pkPhase = .active → ∀ (n : Nat) (cs : List Instr), ∃ rs t rs' t',
      runCommands (List.replicate n .pkComment ++ cs) s = some (rs, t) ∧
      runCommands cs s = some (rs', t') ∧ packOutput rs = packOutput rs' ∧ t.block = t'.block) ∧
    ∃ rs t, runCommands [.pkStart, .pkComment, .pkComment, .pkFlush] s = some (rs, t) ∧ packOutput rs = []

/-- 41_stream_packer.md R110: PK_FLUSH at both offsets of an open stream, and refused outside one. -/
def Obligations.PkFlushResult : Prop :=
  encode .pkFlush = .ports ⟨false, 0x7, 0, 0, 0, 0, 0⟩ ∧
  ∀ s : State,
    (s.pkPhase = .active → s.pkOfs = .zero →
      exec .pkFlush s =
        .next { s with
          pkPhase := .done, pkOfs := .zero, pkHold := 0, result := .completed (.bytes []) }) ∧
    (s.pkPhase = .active → s.pkOfs = .four →
      exec .pkFlush s =
        .next { s with
          pkPhase := .done, pkOfs := .zero, pkHold := 0, pkNbytes := s.pkNbytes + 1
          result := .completed (.bytes [s.pkHold ++ (0 : BitVec 4)]) }) ∧
    (s.pkPhase ≠ .active →
      exec .pkFlush s = .next { s with refused := true, result := .refused .noOpenStream })

/-- 41_stream_packer.md R108 (the spec marks it as derived): PK_WORD is the general offset tracking on the held bits. -/
def Obligations.PackerIsGeneralOffsetTracking : Prop :=
  ∀ (i : InstCode) (a : Addr) (k : CtrlCode) (s : State), s.pkPhase = .active → ∃ t,
    exec (.pkWord i a k) s = .next t ∧
    t.result = .completed (.bytes (generalPack s.pkHeld (enc i a k)).1) ∧
    t.pkHeld = (generalPack s.pkHeld (enc i a k)).2 ∧
    t.pkOfs.bits = (generalPack s.pkHeld (enc i a k)).2.length ∧
    t.pkHeld.length < 8

/-- 41_stream_packer.md R117: the low nibble of a word packed at offset 0 is held back; a flush delivers it with
the zero pad, and a PK_START or a RESET drops it without a byte. -/
def Obligations.HeldNibbleNeedsFlush : Prop :=
  ∀ (i : InstCode) (a : Addr) (k : CtrlCode) (s : State), s.pkPhase = .active → s.pkOfs = .zero → ∃ t f p,
    exec (.pkWord i a k) s = .next t ∧
    t.result.bytesOut = [(enc i a k).extractLsb' 4 8] ∧ t.pkHold = (enc i a k).extractLsb' 0 4 ∧
    exec .pkFlush t = .next f ∧
    f.result.bytesOut = [(enc i a k).extractLsb' 0 4 ++ (0 : BitVec 4)] ∧
    exec .pkStart t = .next p ∧ p.result = .completed .none ∧ p.pkOfs = .zero ∧ p.pkHold = 0 ∧
    ∀ q : Ports, q.rst = true → ∃ r,
      step (t.issueNext (.ports q)) = .next r ∧
      r.result = .completed .none ∧ r.pkOfs = .zero ∧ r.pkHold = 0 ∧ r.pkPhase = .idle

/-! ## The unpacker's commands -/

/-- 42_stream_unpacker.md R119: UP_START in every state. -/
def Obligations.UpStartResult : Prop :=
  encode .upStart = .ports ⟨false, 0x8, 0, 0, 0, 0, 0⟩ ∧
  ∀ s : State,
    exec .upStart s =
      .next { s with
        upPhase := .active, upN := .zero, upAcc := 0, upNbytes := 0, upCnt := 0
        result := .completed .none }

/-- 42_stream_unpacker.md R121: UP_BYTE at the three offsets of an open stream, and refused outside one; under the
unpacker's invariant the second and third byte of every three complete a word. -/
def Obligations.UpByteResult : Prop :=
  ∀ (b : Byte) (s : State),
    encode (.upByte b) = .ports ⟨false, 0x9, 0, 0, 0, 0, b⟩ ∧
    (s.upPhase = .active → s.upN = .zero →
      exec (.upByte b) s =
        .next { s with
          upAcc := b, upN := .eight, upNbytes := s.upNbytes + 1, result := .completed (.words []) }) ∧
    (s.upPhase = .active → s.upN = .eight →
      exec (.upByte b) s =
        .next { s with
          upAcc := (b.extractLsb' 0 4).setWidth 8, upN := .four
          upNbytes := s.upNbytes + 1, upCnt := s.upCnt + 1
          result := .completed (.words [dec (s.upAcc ++ b.extractLsb' 4 4)]) }) ∧
    (s.upPhase = .active → s.upN = .four →
      exec (.upByte b) s =
        .next { s with
          upAcc := 0, upN := .zero, upNbytes := s.upNbytes + 1, upCnt := s.upCnt + 1
          result := .completed (.words [dec (s.upAcc.extractLsb' 0 4 ++ b)]) }) ∧
    (s.upPhase ≠ .active →
      exec (.upByte b) s = .next { s with refused := true, result := .refused .noOpenStream }) ∧
    (s.upPhase = .active → s.UnpackerInv → ∃ t, exec (.upByte b) s = .next t ∧
      t.result.wordsOut.length = if s.upNbytes % 3 = 0 then 0 else 1)

/-- 42_stream_unpacker.md R123: UP_END discards the held bits whatever their values; refused outside a stream; under
the unpacker's invariant it discards 0, 8 or 4 bits as the byte count is 0, 1 or 2 modulo 3. -/
def Obligations.UpEndResult : Prop :=
  encode .upEnd = .ports ⟨false, 0xA, 0, 0, 0, 0, 0⟩ ∧
  ∀ s : State,
    (s.upPhase = .active →
      exec .upEnd s =
        .next { s with upPhase := .done, upN := .zero, upAcc := 0, result := .completed .none }) ∧
    (s.upPhase ≠ .active →
      exec .upEnd s = .next { s with refused := true, result := .refused .noOpenStream }) ∧
    (s.upPhase = .active → s.UnpackerInv →
      s.upN.bits = if s.upNbytes % 3 = 0 then 0 else if s.upNbytes % 3 = 1 then 8 else 4)

/-- 42_stream_unpacker.md R122 (the spec marks it as derived): UP_BYTE is the general offset tracking on the held bits. -/
def Obligations.UnpackerIsGeneralOffsetTracking : Prop :=
  ∀ (b : Byte) (s : State), s.upPhase = .active → ∃ t,
    exec (.upByte b) s = .next t ∧
    t.result = .completed (.words ((generalUnpack s.upHeld b).1.map dec)) ∧
    t.upHeld = (generalUnpack s.upHeld b).2 ∧
    t.upN.bits = (generalUnpack s.upHeld b).2.length ∧
    t.upAcc.toNat < 2 ^ t.upN.bits ∧ t.upHeld.length < 12

/-! ## Streams against the source's functions -/

/-- 20_memory.md R36, with R35's numbering of the bits: bit `12j + i` of the encoded stream is bit `11 - i` of
word `j`, for every word sequence. -/
def Obligations.WordPlacement : Prop :=
  ∀ (ws : List Word) (j i : Nat) (w : Word), ws[j]? = some w → i < 12 →
    streamBit (encodeWords ws) (12 * j + i) = some (w.getLsbD (11 - i))

/-- 20_memory.md R40: the end pad is zero, 4 bits for an odd count of words and none for an even one, and the
length is `ceil(12 * word_count / 8)` bytes. -/
def Obligations.EndPadIsZero : Prop :=
  (∀ ws : List Word,
    (encodeWords ws).length = (12 * ws.length + 7) / 8 ∧
    (∀ n, 12 * ws.length ≤ n → n < 8 * (encodeWords ws).length →
      streamBit (encodeWords ws) n = some false) ∧
    8 * (encodeWords ws).length - 12 * ws.length = if ws.length % 2 = 1 then 4 else 0) ∧
  encodeWords [] = []

/-- 42_stream_unpacker.md R120: `decode_stream` has `floor(8L / 12)` words, word `j` made of bits `12j` to
`12j + 11` MSB-first; nothing else is decoded. -/
def Obligations.DecodeStreamWords : Prop :=
  ∀ bs : List Byte,
    (decodeStream bs).length = 8 * bs.length / 12 ∧
    ∀ j, j < 8 * bs.length / 12 → ∃ v : Word,
      (decodeStream bs)[j]? = some (dec v) ∧
      ∀ i, i < 12 → streamBit bs (12 * j + i) = some (v.getLsbD (11 - i))

/-- 41_stream_packer.md R116 (the spec marks it as derived): from every state, the packing stream of a node sequence runs with no refusal and its
output is `encode_stream` of the sequence. -/
def Obligations.PackingAgreesWithSource : Prop :=
  ∀ (ns : List Node) (s : State), ∃ rs t,
    runCommands (packCommands ns) s = some (rs, t) ∧ packOutput rs = encodeStream ns ∧
    t.packingEnded ∧ t.refused = s.refused

/-- 42_stream_unpacker.md R131 (the spec marks it as derived): from every state, the unpacking stream of a byte sequence runs with no refusal and
its output is `decode_stream` of the sequence. -/
def Obligations.UnpackingAgreesWithSource : Prop :=
  ∀ (bs : List Byte) (s : State), ∃ rs t,
    runCommands (unpackCommands bs) s = some (rs, t) ∧ unpackOutput rs = decodeStream bs ∧
    t.unpackingEnded ∧ t.refused = s.refused

/-- 41_stream_packer.md R112 (the spec marks it as derived): the output length of a stream of `n` words, and the final counters. -/
def Obligations.PackedLength : Prop :=
  ∀ (ns : List Node) (s : State), ∃ rs t,
    runCommands (packCommands ns) s = some (rs, t) ∧
    let n := (wordsOfNodes ns).length
    (packOutput rs).length = (12 * n + 7) / 8 ∧
    (n % 2 = 0 → (packOutput rs).length = 3 * n / 2) ∧
    (n % 2 = 1 → (packOutput rs).length = (3 * n + 1) / 2) ∧
    t.pkNbytes = (packOutput rs).length ∧ t.pkCnt = n

/-- 42_stream_unpacker.md R125 (the spec marks it as derived): the number of words of a stream of `L` bytes, and the final counters. -/
def Obligations.UnpackedCount : Prop :=
  ∀ (bs : List Byte) (s : State), ∃ rs t,
    runCommands (unpackCommands bs) s = some (rs, t) ∧
    (unpackOutput rs).length = 8 * bs.length / 12 ∧
    8 * bs.length / 12 = 2 * (bs.length / 3) + (if bs.length % 3 = 2 then 1 else 0) ∧
    t.upCnt = 8 * bs.length / 12 ∧ t.upNbytes = bs.length

/-- 42_stream_unpacker.md R126 (the spec marks it as derived): word `j` is the one word emitted by the byte of index `floor((12j + 11) / 8)`
(result 0 is UP_START's), and UP_END emits none. -/
def Obligations.WordsEmittedEarliest : Prop :=
  ∀ (bs : List Byte) (s : State), ∃ rs t,
    runCommands (unpackCommands bs) s = some (rs, t) ∧
    (∀ j d, (decodeStream bs)[j]? = some d →
      (rs[(12 * j + 11) / 8 + 1]?).map CommandResult.wordsOut = some [d]) ∧
    rs.getLast? = some (.completed .none)

/-- 42_stream_unpacker.md R129 (the spec marks it as derived): the round trip, of the source's functions and of the commands: a packing stream's
output fed to an unpacking stream gives the words back, each with its class. -/
def Obligations.StreamRoundTrip : Prop :=
  (∀ ws : List Word, decodeStream (encodeWords ws) = ws.map dec) ∧
  ∀ (ns : List Node) (s : State), ∃ rs t rs' u,
    runCommands (packCommands ns) s = some (rs, t) ∧
    runCommands (unpackCommands (packOutput rs)) t = some (rs', u) ∧
    unpackOutput rs' = (wordsOfNodes ns).map dec

/-- 42_stream_unpacker.md R130 (the spec marks it as derived): when packing an unpacked byte sequence gives it back, and what it gives else. -/
def Obligations.ReverseRoundTrip : Prop :=
  ∀ bs : List Byte,
    let again := encodeStream ((decodeStream bs).map nodeOfDecoded)
    (bs.length % 3 = 0 → again = bs) ∧
    (bs.length % 3 = 1 → again = bs.dropLast ∧ again ≠ bs) ∧
    (∀ (front : List Byte) (b : Byte), bs = front ++ [b] → bs.length % 3 = 2 →
      again = front ++ [b &&& 0xF0] ∧ (again = bs ↔ b.extractLsb' 0 4 = 0))

/-- 41_stream_packer.md R114 (the spec marks it as derived): removing the Comment nodes of a stream changes no output, no state and no response
that carries anything. -/
def Obligations.CommentsInvisible : Prop :=
  ∀ (ns : List Node) (s : State), ∃ rs rs' t,
    let noComments := ns.filter (fun n => match n with | .word _ _ _ => true | .comment _ => false)
    runCommands (packCommands ns) s = some (rs, t) ∧
    runCommands (packCommands noComments) s = some (rs', t) ∧
    packOutput rs = packOutput rs' ∧
    rs.filter (fun r => decide (r ≠ .completed .none)) = rs'.filter (fun r => decide (r ≠ .completed .none))

/-! ## The whole machine -/

/-- 00_scope.md R11: when the next request decodes to an instruction (and no RESET is asserted and no fault is
recorded), the step is that instruction's meaning on the state with the request taken off the list. -/
def Obligations.StepRunsDecoded : Prop :=
  ∀ (s : State) (q : Request) (rest : List Request) (i : Instr),
    s.input = q :: rest → q.rst = false → s.faults = [] → decode q = .ok i →
    step s = exec i { s with input := rest }

/-- A table word placed as the next request is the instruction that runs, and the step leaves the requests issued
before as they were (the model's placement: log entries 1 and 7). -/
def Obligations.PlacedWordRuns : Prop :=
  ∀ (s : State) (nbits w : Nat) (i : Instr),
    s.faults = [] → decodeTableWord nbits w = some i → step (s.withFetchWord nbits w) = exec i s

/-- The model's choice (log entry 1): with nothing issued a step changes nothing and gives no response. -/
def Obligations.IdleWithoutRequest : Prop :=
  ∀ s : State, s.input = [] → s.faults = [] → step s = .next { s with result := .none }

/-- 70_reset_and_hazards.md R146: RESET in every state, over any command issued with it. -/
def Obligations.ResetStep : Prop :=
  ∀ (s : State) (p : Ports) (rest : List Request), s.input = .ports p :: rest → p.rst = true →
    step s = .next
      { pkPhase := .idle, pkOfs := .zero, pkHold := 0, pkCnt := 0, pkNbytes := 0
        upPhase := .idle, upN := .zero, upAcc := 0, upNbytes := 0, upCnt := 0
        refused := s.refused, faults := s.faults, result := .completed .none, input := rest }

/-- 70_reset_and_hazards.md R147: every field of R13 in the launch state. -/
def Obligations.LaunchState : Prop :=
  State.reset.packerFields = (.idle, .zero, 0, 0, 0) ∧
  State.reset.unpackerFields = (.idle, .zero, 0, 0, 0) ∧
  State.reset.marks = (false, [])

/-- The invariant of 10_state.md R19, R22, R25, R28 (phase by phase, log entry 8), kept by every step from every
state that has it. -/
def Obligations.InvariantKept : Prop :=
  ∀ s t : State, s.Inv → step s = .next t → t.Inv

/-- The invariant holds in the launch state. -/
def Obligations.InvariantAtLaunch : Prop := State.reset.Inv

/-- In every state a host can bring the block to, the invariant holds and the next step answers a next state: no
command faults (60_exceptions.md R134) and nothing stops a run. -/
def Obligations.ReachableStatesGoOn : Prop :=
  ∀ s : State, Reachable s → s.Inv ∧ ∃ t, step s = .next t

/-- 60_exceptions.md R133: the outcome of a command, decided in the rule's order: refused as reserved, refused for
want of an open stream, or completed with a response. -/
def Obligations.OutcomeOfCommand : Prop :=
  ∀ (s : State) (q : Request) (rest : List Request),
    s.input = q :: rest → q.rst = false → s.faults = [] → ∃ t, step s = .next t ∧
    ((∃ c, decode q = .error c) → t.result = .refused .reservedCommand) ∧
    (∀ i, decode q = .ok i →
      (s.wrongPhase i → t.result = .refused .noOpenStream) ∧
      (¬ s.wrongPhase i → ∃ r, t.result = .completed r))

/-- 60_exceptions.md R135: a refused command changes nothing but the mark, gives no response, and the block then
accepts the next request. -/
def Obligations.RefusalChangesNothing : Prop :=
  ∀ (s t : State) (why : RefuseReason), step s = .next t → t.result = .refused why →
    t.packerFields = s.packerFields ∧ t.unpackerFields = s.unpackerFields ∧ t.faults = s.faults ∧
    t.refused = true ∧ s.input = s.input.take 1 ++ t.input ∧ ∃ u, step t = .next u

/-- 10_state.md R31: the marks start false and empty; a step only sets `refused`, and only by refusing; no step
changes `faults` (with total tables none adds one, and nothing clears it); RESET is one of these steps. -/
def Obligations.MarksOnlyGrow : Prop :=
  State.reset.marks = (false, []) ∧
  ∀ s t : State, step s = .next t →
    (s.refused = true → t.refused = true) ∧
    (t.refused ≠ s.refused → ∃ why, t.result = .refused why) ∧
    t.faults = s.faults

/-- 60_exceptions.md R134, in the model's reading (log entry 5): recording a fault adds it, gives no response and
changes no unit; after it no request but RESET is performed, and RESET does not lift it. -/
def Obligations.FaultedBlockIsStuck : Prop :=
  ∀ (f : Fault) (s : State),
    f ∈ (s.recordFault f).faults ∧ (s.recordFault f).result = .faulted f ∧
    (s.recordFault f).packerFields = s.packerFields ∧
    (s.recordFault f).unpackerFields = s.unpackerFields ∧
    (∀ q : Request, q.rst = false → step ((s.recordFault f).issueNext q) = .fault .internalConsistency) ∧
    ∀ q : Request, q.rst = true → ∃ t,
      step ((s.recordFault f).issueNext q) = .next t ∧
      (t.input = [] → step t = .fault .internalConsistency)

/-- 10_state.md R30, what is written: the frame of every instruction. A command of one unit leaves the other
unit's fields, the recorded faults and the issued requests alone; a word row or a word command leaves both
units and both marks alone. -/
def Obligations.UnitFrames : Prop :=
  ∀ (i : Instr) (s : State), ∃ t, exec i s = .next t ∧
    (isUnpackerCommand i = false → t.unpackerFields = s.unpackerFields) ∧
    (isPackerCommand i = false → t.packerFields = s.packerFields) ∧
    (isPackerCommand i = false → isUnpackerCommand i = false → t.refused = s.refused) ∧
    t.faults = s.faults ∧ t.input = s.input

/-- 10_state.md R30, what is read: a unit's command does the same to its unit, and answers the same, in any two
states that agree on its unit; a word row or a word command answers the same in any two states. -/
def Obligations.UnitReadsOnlyItself : Prop :=
  ∀ (i : Instr) (s s' t t' : State), exec i s = .next t → exec i s' = .next t' →
    (isPackerCommand i = true → s.packerFields = s'.packerFields →
      t.packerFields = t'.packerFields ∧ t.result = t'.result) ∧
    (isUnpackerCommand i = true → s.unpackerFields = s'.unpackerFields →
      t.unpackerFields = t'.unpackerFields ∧ t.result = t'.result) ∧
    (isPackerCommand i = false → isUnpackerCommand i = false → t.result = t'.result)

/-- 20_memory.md R47: a packer command and an unpacker command commute: same responses, same block. -/
def Obligations.UnitsCommute : Prop :=
  ∀ (i j : Instr) (s : State), isPackerCommand i = true → isUnpackerCommand j = true → ∃ ri rj t u,
    runCommands [i, j] s = some ([ri, rj], t) ∧ runCommands [j, i] s = some ([rj, ri], u) ∧
    t.block = u.block

/-- 20_memory.md R47 over whole runs: what else is issued between a unit's commands changes neither its output
nor its fields. -/
def Obligations.InterleavingInvisible : Prop :=
  ∀ (cs : List Instr) (s : State), ∃ rs t ps tp us tu,
    runCommands cs s = some (rs, t) ∧
    runCommands (cs.filter isPackerCommand) s = some (ps, tp) ∧
    runCommands (cs.filter isUnpackerCommand) s = some (us, tu) ∧
    packOutput rs = packOutput ps ∧ t.packerFields = tp.packerFields ∧
    unpackOutput rs = unpackOutput us ∧ t.unpackerFields = tu.unpackerFields

/-- 10_state.md R32: a START sets every field of its unit but the phase to its reset value, and what follows it does
not depend on anything before it. -/
def Obligations.StreamsStartFresh : Prop :=
  (∀ s : State, ∃ t u, exec .pkStart s = .next t ∧ exec .upStart s = .next u ∧
    t.pkOfs = State.reset.pkOfs ∧ t.pkHold = State.reset.pkHold ∧ t.pkCnt = State.reset.pkCnt ∧
    t.pkNbytes = State.reset.pkNbytes ∧ u.upN = State.reset.upN ∧ u.upAcc = State.reset.upAcc ∧
    u.upNbytes = State.reset.upNbytes ∧ u.upCnt = State.reset.upCnt) ∧
  ∀ (cs : List Instr) (s s' : State),
    (∃ rs t rs' t', runCommands (.pkStart :: cs) s = some (rs, t) ∧
      runCommands (.pkStart :: cs) s' = some (rs', t') ∧
      packOutput rs = packOutput rs' ∧ t.packerFields = t'.packerFields) ∧
    (∃ rs t rs' t', runCommands (.upStart :: cs) s = some (rs, t) ∧
      runCommands (.upStart :: cs) s' = some (rs', t') ∧
      unpackOutput rs = unpackOutput rs' ∧ t.unpackerFields = t'.unpackerFields)

/-- 10_state.md R17, R23: only a START opens a stream, only a FLUSH or END ends an open one, and only RESET makes a
unit idle. -/
def Obligations.PhaseChanges : Prop :=
  ∀ s t : State, step s = .next t →
    (t.pkPhase ≠ s.pkPhase →
      ∃ q rest, s.input = q :: rest ∧
        ((q.rst = true ∧ t.pkPhase = .idle) ∨
         (q.rst = false ∧ decode q = .ok .pkStart ∧ t.pkPhase = .active) ∨
         (q.rst = false ∧ decode q = .ok .pkFlush ∧ s.pkPhase = .active ∧ t.pkPhase = .done))) ∧
    (t.upPhase ≠ s.upPhase →
      ∃ q rest, s.input = q :: rest ∧
        ((q.rst = true ∧ t.upPhase = .idle) ∨
         (q.rst = false ∧ decode q = .ok .upStart ∧ t.upPhase = .active) ∨
         (q.rst = false ∧ decode q = .ok .upEnd ∧ s.upPhase = .active ∧ t.upPhase = .done)))

/-- 20_memory.md R43: a command delivers at most 2 bytes and at most 1 word, and only the commands R80 names
deliver any. -/
def Obligations.ResponseSizes : Prop :=
  ∀ (i : Instr) (s : State), ∃ t, exec i s = .next t ∧
    t.result.bytesOut.length ≤ 2 ∧ t.result.wordsOut.length ≤ 1 ∧
    (isPackerCommand i = false → t.result.bytesOut = []) ∧
    (isUnpackerCommand i = false → t.result.wordsOut = [])

/-- 10_state.md R22's first clause, `pk_ofs = (12 * pk_cnt) mod 8` in every reachable state, does not hold of the
rules' own pseudocode: after PK_FLUSH of an odd number of words it fails (log entry 8). -/
def Obligations.OffsetClauseFailsAfterFlush : Prop :=
  ∃ s : State, Reachable s ∧ s.pkPhase = .done ∧ s.pkOfs.bits ≠ 12 * s.pkCnt % 8

/-! ## The toolchain's language -/

/-- 30_encoding.md R88 (the spec marks it as derived): at most one base matches a numeral, so the order of trying changes no result. -/
def Obligations.NumeralBasesExclusive : Prop :=
  ∀ (p : AsmParams) (tok : List Char),
    let b := numeralOfBase p.upperBaseMark 'b' 2 tok
    let o := numeralOfBase p.upperBaseMark 'o' 8 tok
    let h := numeralOfBase p.upperBaseMark 'h' 16 tok
    (b.isSome → o = none ∧ h = none) ∧ (o.isSome → b = none ∧ h = none) ∧
    (h.isSome → b = none ∧ o = none) ∧
    numeral p tok = b.or (o.or h) ∧ numeral p tok = h.or (o.or b)

/-- 30_encoding.md R86: for every mnemonic table of the toolchain (the mnemonics the source does not give are a
parameter, log entries 9 and 10), a mnemonic is matched in any case and only as its full literal; `one` in every case
selects code 4, `nop0` code 0, `stoc` code 9, `sto` another code; with the spec's labels the table is R54 to R69's. -/
def Obligations.MnemonicFullLiteralAnyCase : Prop :=
  ∀ p : AsmParams,
    (∀ (tok : List Char) (o : Opcode), mnemonicOf p tok = some o ↔ tok.map Char.toLower = spelling p o) ∧
    (∀ tok : List Char, tok.map Char.toLower = ['o', 'n', 'e'] →
      (mnemonicOf p tok).map Opcode.code = some 4) ∧
    (∀ tok : List Char, tok.map Char.toLower = ['n', 'o', 'p', '0'] →
      (mnemonicOf p tok).map Opcode.code = some 0) ∧
    (∀ tok : List Char, tok.map Char.toLower = ['s', 't', 'o', 'c'] →
      (mnemonicOf p tok).map Opcode.code = some 9) ∧
    (∃ o, o ≠ .stoc ∧ ∀ tok : List Char, tok.map Char.toLower = ['s', 't', 'o'] → mnemonicOf p tok = some o) ∧
    (∀ o, ∃ tok, mnemonicOf p tok = some o) ∧
    (p.mnemonics.labels = specLabels → ∀ o : Opcode, o.mnemonic = String.ofList (spelling p o))
end

