-- ==== Sys2Proof/Laws/Codec.lean ====
section
/-! SUPPORT. The word format's own lemmas: the fields of an encoded word, and an encoded word under a row's mask. -/

namespace Sys2Proof

open Sys2Proof.Machine

/-- Bit by bit, an encoded word holds the control bits, then the address bits, then the instruction bits. -/
theorem getLsbD_enc (i : InstCode) (a : Addr) (k : CtrlCode) (n : Nat) (h : n < 12) :
    (enc i a k).getLsbD n =
      if n < 2 then k.getLsbD n else if n < 8 then a.getLsbD (n - 2) else i.getLsbD (n - 8) := by
  unfold enc
  simp only [BitVec.getLsbD_or, BitVec.getLsbD_shiftLeft, BitVec.getLsbD_setWidth]
  by_cases h2 : n < 2
  · simp [h, h2, show n < 8 by omega]
  · by_cases h8 : n < 8
    · have hk : k.getLsbD n = false := BitVec.getLsbD_of_ge k n (by omega)
      simp [h, h2, h8, hk, show n - 2 < 12 by omega]
    · have hk : k.getLsbD n = false := BitVec.getLsbD_of_ge k n (by omega)
      have ha : a.getLsbD (n - 2) = false := BitVec.getLsbD_of_ge a (n - 2) (by omega)
      simp [h, h2, h8, hk, ha, show n - 8 < 12 by omega]

@[simp] theorem instField_enc (i : InstCode) (a : Addr) (k : CtrlCode) : instField (enc i a k) = i := by
  apply BitVec.eq_of_getLsbD_eq
  intro n hn
  rw [instField, BitVec.getLsbD_extractLsb', getLsbD_enc _ _ _ _ (by omega), if_neg (by omega),
    if_neg (by omega), Nat.add_sub_cancel_left]
  simp [hn]

@[simp] theorem addrField_enc (i : InstCode) (a : Addr) (k : CtrlCode) : addrField (enc i a k) = a := by
  apply BitVec.eq_of_getLsbD_eq
  intro n hn
  rw [addrField, BitVec.getLsbD_extractLsb', getLsbD_enc _ _ _ _ (by omega), if_neg (by omega),
    if_pos (by omega), Nat.add_sub_cancel_left]
  simp [hn]

@[simp] theorem ctrlField_enc (i : InstCode) (a : Addr) (k : CtrlCode) : ctrlField (enc i a k) = k := by
  apply BitVec.eq_of_getLsbD_eq
  intro n hn
  rw [ctrlField, BitVec.getLsbD_extractLsb', getLsbD_enc _ _ _ _ (by omega)]
  simp [hn]

/-- Under the rows' mask an encoded word shows its instruction code alone. -/
theorem enc_and_mask (i : InstCode) (a : Addr) (k : CtrlCode) :
    enc i a k &&& 0xF00#12 = i.setWidth 12 <<< 8 := by
  apply BitVec.eq_of_getLsbD_eq
  intro n hn
  rw [BitVec.getLsbD_and, getLsbD_enc _ _ _ _ hn, BitVec.getLsbD_shiftLeft, BitVec.getLsbD_setWidth]
  have hmask : (0xF00#12).getLsbD n = decide (8 ≤ n) := by
    interval_cases n <;> rfl
  rw [hmask]
  by_cases h8 : n < 8
  · simp [h8, show ¬ 8 ≤ n by omega]
  · simp [h8, show ¬ n < 2 by omega, show 8 ≤ n by omega, hn, show n - 8 < 12 by omega]

@[simp] theorem wordOfInput_setWidth (v : Word) : wordOfInput (v.setWidth Config.inW) = v := by
  apply BitVec.eq_of_getLsbD_eq
  intro n hn
  simp [wordOfInput, hn, show n < 32 by omega]

end Sys2Proof
end

