-- ==== Sys2Proof/Laws/State.lean ====
section
/-! SUPPORT. One lemma for each field under each state update that leaves it alone or writes it, true by rfl. -/

namespace Sys2Proof.Machine

open Sys2Proof

/-! `complete` -/

@[simp] theorem State.complete_pkPhase (r : Response) (s : State) : (s.complete r).pkPhase = s.pkPhase := rfl
@[simp] theorem State.complete_pkOfs (r : Response) (s : State) : (s.complete r).pkOfs = s.pkOfs := rfl
@[simp] theorem State.complete_pkHold (r : Response) (s : State) : (s.complete r).pkHold = s.pkHold := rfl
@[simp] theorem State.complete_pkCnt (r : Response) (s : State) : (s.complete r).pkCnt = s.pkCnt := rfl
@[simp] theorem State.complete_pkNbytes (r : Response) (s : State) : (s.complete r).pkNbytes = s.pkNbytes := rfl
@[simp] theorem State.complete_upPhase (r : Response) (s : State) : (s.complete r).upPhase = s.upPhase := rfl
@[simp] theorem State.complete_upN (r : Response) (s : State) : (s.complete r).upN = s.upN := rfl
@[simp] theorem State.complete_upAcc (r : Response) (s : State) : (s.complete r).upAcc = s.upAcc := rfl
@[simp] theorem State.complete_upNbytes (r : Response) (s : State) : (s.complete r).upNbytes = s.upNbytes := rfl
@[simp] theorem State.complete_upCnt (r : Response) (s : State) : (s.complete r).upCnt = s.upCnt := rfl
@[simp] theorem State.complete_refused (r : Response) (s : State) : (s.complete r).refused = s.refused := rfl
@[simp] theorem State.complete_faults (r : Response) (s : State) : (s.complete r).faults = s.faults := rfl
@[simp] theorem State.complete_result (r : Response) (s : State) : (s.complete r).result = .completed r := rfl
@[simp] theorem State.complete_input (r : Response) (s : State) : (s.complete r).input = s.input := rfl

/-! `refuse` -/

@[simp] theorem State.refuse_pkPhase (w : RefuseReason) (s : State) : (s.refuse w).pkPhase = s.pkPhase := rfl
@[simp] theorem State.refuse_pkOfs (w : RefuseReason) (s : State) : (s.refuse w).pkOfs = s.pkOfs := rfl
@[simp] theorem State.refuse_pkHold (w : RefuseReason) (s : State) : (s.refuse w).pkHold = s.pkHold := rfl
@[simp] theorem State.refuse_pkCnt (w : RefuseReason) (s : State) : (s.refuse w).pkCnt = s.pkCnt := rfl
@[simp] theorem State.refuse_pkNbytes (w : RefuseReason) (s : State) : (s.refuse w).pkNbytes = s.pkNbytes := rfl
@[simp] theorem State.refuse_upPhase (w : RefuseReason) (s : State) : (s.refuse w).upPhase = s.upPhase := rfl
@[simp] theorem State.refuse_upN (w : RefuseReason) (s : State) : (s.refuse w).upN = s.upN := rfl
@[simp] theorem State.refuse_upAcc (w : RefuseReason) (s : State) : (s.refuse w).upAcc = s.upAcc := rfl
@[simp] theorem State.refuse_upNbytes (w : RefuseReason) (s : State) : (s.refuse w).upNbytes = s.upNbytes := rfl
@[simp] theorem State.refuse_upCnt (w : RefuseReason) (s : State) : (s.refuse w).upCnt = s.upCnt := rfl
@[simp] theorem State.refuse_refused (w : RefuseReason) (s : State) : (s.refuse w).refused = true := rfl
@[simp] theorem State.refuse_faults (w : RefuseReason) (s : State) : (s.refuse w).faults = s.faults := rfl
@[simp] theorem State.refuse_result (w : RefuseReason) (s : State) : (s.refuse w).result = .refused w := rfl
@[simp] theorem State.refuse_input (w : RefuseReason) (s : State) : (s.refuse w).input = s.input := rfl

/-! `markRefused` -/

@[simp] theorem State.markRefused_pkPhase (s : State) : (s.markRefused).pkPhase = s.pkPhase := rfl
@[simp] theorem State.markRefused_pkOfs (s : State) : (s.markRefused).pkOfs = s.pkOfs := rfl
@[simp] theorem State.markRefused_pkHold (s : State) : (s.markRefused).pkHold = s.pkHold := rfl
@[simp] theorem State.markRefused_pkCnt (s : State) : (s.markRefused).pkCnt = s.pkCnt := rfl
@[simp] theorem State.markRefused_pkNbytes (s : State) : (s.markRefused).pkNbytes = s.pkNbytes := rfl
@[simp] theorem State.markRefused_upPhase (s : State) : (s.markRefused).upPhase = s.upPhase := rfl
@[simp] theorem State.markRefused_upN (s : State) : (s.markRefused).upN = s.upN := rfl
@[simp] theorem State.markRefused_upAcc (s : State) : (s.markRefused).upAcc = s.upAcc := rfl
@[simp] theorem State.markRefused_upNbytes (s : State) : (s.markRefused).upNbytes = s.upNbytes := rfl
@[simp] theorem State.markRefused_upCnt (s : State) : (s.markRefused).upCnt = s.upCnt := rfl
@[simp] theorem State.markRefused_refused (s : State) : (s.markRefused).refused = true := rfl
@[simp] theorem State.markRefused_faults (s : State) : (s.markRefused).faults = s.faults := rfl
@[simp] theorem State.markRefused_result (s : State) : (s.markRefused).result = s.result := rfl
@[simp] theorem State.markRefused_input (s : State) : (s.markRefused).input = s.input := rfl

/-! `addFault` -/

@[simp] theorem State.addFault_pkPhase (f : Fault) (s : State) : (s.addFault f).pkPhase = s.pkPhase := rfl
@[simp] theorem State.addFault_pkOfs (f : Fault) (s : State) : (s.addFault f).pkOfs = s.pkOfs := rfl
@[simp] theorem State.addFault_pkHold (f : Fault) (s : State) : (s.addFault f).pkHold = s.pkHold := rfl
@[simp] theorem State.addFault_pkCnt (f : Fault) (s : State) : (s.addFault f).pkCnt = s.pkCnt := rfl
@[simp] theorem State.addFault_pkNbytes (f : Fault) (s : State) : (s.addFault f).pkNbytes = s.pkNbytes := rfl
@[simp] theorem State.addFault_upPhase (f : Fault) (s : State) : (s.addFault f).upPhase = s.upPhase := rfl
@[simp] theorem State.addFault_upN (f : Fault) (s : State) : (s.addFault f).upN = s.upN := rfl
@[simp] theorem State.addFault_upAcc (f : Fault) (s : State) : (s.addFault f).upAcc = s.upAcc := rfl
@[simp] theorem State.addFault_upNbytes (f : Fault) (s : State) : (s.addFault f).upNbytes = s.upNbytes := rfl
@[simp] theorem State.addFault_upCnt (f : Fault) (s : State) : (s.addFault f).upCnt = s.upCnt := rfl
@[simp] theorem State.addFault_refused (f : Fault) (s : State) : (s.addFault f).refused = s.refused := rfl
@[simp] theorem State.addFault_faults (f : Fault) (s : State) : (s.addFault f).faults = if f ∈ s.faults then s.faults else f :: s.faults := rfl
@[simp] theorem State.addFault_result (f : Fault) (s : State) : (s.addFault f).result = s.result := rfl
@[simp] theorem State.addFault_input (f : Fault) (s : State) : (s.addFault f).input = s.input := rfl

/-! `recordFault` -/

@[simp] theorem State.recordFault_pkPhase (f : Fault) (s : State) : (s.recordFault f).pkPhase = s.pkPhase := rfl
@[simp] theorem State.recordFault_pkOfs (f : Fault) (s : State) : (s.recordFault f).pkOfs = s.pkOfs := rfl
@[simp] theorem State.recordFault_pkHold (f : Fault) (s : State) : (s.recordFault f).pkHold = s.pkHold := rfl
@[simp] theorem State.recordFault_pkCnt (f : Fault) (s : State) : (s.recordFault f).pkCnt = s.pkCnt := rfl
@[simp] theorem State.recordFault_pkNbytes (f : Fault) (s : State) : (s.recordFault f).pkNbytes = s.pkNbytes := rfl
@[simp] theorem State.recordFault_upPhase (f : Fault) (s : State) : (s.recordFault f).upPhase = s.upPhase := rfl
@[simp] theorem State.recordFault_upN (f : Fault) (s : State) : (s.recordFault f).upN = s.upN := rfl
@[simp] theorem State.recordFault_upAcc (f : Fault) (s : State) : (s.recordFault f).upAcc = s.upAcc := rfl
@[simp] theorem State.recordFault_upNbytes (f : Fault) (s : State) : (s.recordFault f).upNbytes = s.upNbytes := rfl
@[simp] theorem State.recordFault_upCnt (f : Fault) (s : State) : (s.recordFault f).upCnt = s.upCnt := rfl
@[simp] theorem State.recordFault_refused (f : Fault) (s : State) : (s.recordFault f).refused = s.refused := rfl
@[simp] theorem State.recordFault_faults (f : Fault) (s : State) : (s.recordFault f).faults = if f ∈ s.faults then s.faults else f :: s.faults := rfl
@[simp] theorem State.recordFault_result (f : Fault) (s : State) : (s.recordFault f).result = .faulted f := rfl
@[simp] theorem State.recordFault_input (f : Fault) (s : State) : (s.recordFault f).input = s.input := rfl

/-! `idleStep` -/

@[simp] theorem State.idleStep_pkPhase (s : State) : (s.idleStep).pkPhase = s.pkPhase := rfl
@[simp] theorem State.idleStep_pkOfs (s : State) : (s.idleStep).pkOfs = s.pkOfs := rfl
@[simp] theorem State.idleStep_pkHold (s : State) : (s.idleStep).pkHold = s.pkHold := rfl
@[simp] theorem State.idleStep_pkCnt (s : State) : (s.idleStep).pkCnt = s.pkCnt := rfl
@[simp] theorem State.idleStep_pkNbytes (s : State) : (s.idleStep).pkNbytes = s.pkNbytes := rfl
@[simp] theorem State.idleStep_upPhase (s : State) : (s.idleStep).upPhase = s.upPhase := rfl
@[simp] theorem State.idleStep_upN (s : State) : (s.idleStep).upN = s.upN := rfl
@[simp] theorem State.idleStep_upAcc (s : State) : (s.idleStep).upAcc = s.upAcc := rfl
@[simp] theorem State.idleStep_upNbytes (s : State) : (s.idleStep).upNbytes = s.upNbytes := rfl
@[simp] theorem State.idleStep_upCnt (s : State) : (s.idleStep).upCnt = s.upCnt := rfl
@[simp] theorem State.idleStep_refused (s : State) : (s.idleStep).refused = s.refused := rfl
@[simp] theorem State.idleStep_faults (s : State) : (s.idleStep).faults = s.faults := rfl
@[simp] theorem State.idleStep_result (s : State) : (s.idleStep).result = .none := rfl
@[simp] theorem State.idleStep_input (s : State) : (s.idleStep).input = s.input := rfl

/-! `applyReset` -/

@[simp] theorem State.applyReset_pkPhase (s : State) : (s.applyReset).pkPhase = .idle := rfl
@[simp] theorem State.applyReset_pkOfs (s : State) : (s.applyReset).pkOfs = .zero := rfl
@[simp] theorem State.applyReset_pkHold (s : State) : (s.applyReset).pkHold = 0#4 := rfl
@[simp] theorem State.applyReset_pkCnt (s : State) : (s.applyReset).pkCnt = 0 := rfl
@[simp] theorem State.applyReset_pkNbytes (s : State) : (s.applyReset).pkNbytes = 0 := rfl
@[simp] theorem State.applyReset_upPhase (s : State) : (s.applyReset).upPhase = .idle := rfl
@[simp] theorem State.applyReset_upN (s : State) : (s.applyReset).upN = .zero := rfl
@[simp] theorem State.applyReset_upAcc (s : State) : (s.applyReset).upAcc = 0#8 := rfl
@[simp] theorem State.applyReset_upNbytes (s : State) : (s.applyReset).upNbytes = 0 := rfl
@[simp] theorem State.applyReset_upCnt (s : State) : (s.applyReset).upCnt = 0 := rfl
@[simp] theorem State.applyReset_refused (s : State) : (s.applyReset).refused = s.refused := rfl
@[simp] theorem State.applyReset_faults (s : State) : (s.applyReset).faults = s.faults := rfl
@[simp] theorem State.applyReset_result (s : State) : (s.applyReset).result = .completed .none := rfl
@[simp] theorem State.applyReset_input (s : State) : (s.applyReset).input = s.input := rfl

/-! `issue` -/

@[simp] theorem State.issue_pkPhase (q : Request) (s : State) : (s.issue q).pkPhase = s.pkPhase := rfl
@[simp] theorem State.issue_pkOfs (q : Request) (s : State) : (s.issue q).pkOfs = s.pkOfs := rfl
@[simp] theorem State.issue_pkHold (q : Request) (s : State) : (s.issue q).pkHold = s.pkHold := rfl
@[simp] theorem State.issue_pkCnt (q : Request) (s : State) : (s.issue q).pkCnt = s.pkCnt := rfl
@[simp] theorem State.issue_pkNbytes (q : Request) (s : State) : (s.issue q).pkNbytes = s.pkNbytes := rfl
@[simp] theorem State.issue_upPhase (q : Request) (s : State) : (s.issue q).upPhase = s.upPhase := rfl
@[simp] theorem State.issue_upN (q : Request) (s : State) : (s.issue q).upN = s.upN := rfl
@[simp] theorem State.issue_upAcc (q : Request) (s : State) : (s.issue q).upAcc = s.upAcc := rfl
@[simp] theorem State.issue_upNbytes (q : Request) (s : State) : (s.issue q).upNbytes = s.upNbytes := rfl
@[simp] theorem State.issue_upCnt (q : Request) (s : State) : (s.issue q).upCnt = s.upCnt := rfl
@[simp] theorem State.issue_refused (q : Request) (s : State) : (s.issue q).refused = s.refused := rfl
@[simp] theorem State.issue_faults (q : Request) (s : State) : (s.issue q).faults = s.faults := rfl
@[simp] theorem State.issue_result (q : Request) (s : State) : (s.issue q).result = s.result := rfl
@[simp] theorem State.issue_input (q : Request) (s : State) : (s.issue q).input = s.input ++ [q] := rfl

/-! `issueNext` -/

@[simp] theorem State.issueNext_pkPhase (q : Request) (s : State) : (s.issueNext q).pkPhase = s.pkPhase := rfl
@[simp] theorem State.issueNext_pkOfs (q : Request) (s : State) : (s.issueNext q).pkOfs = s.pkOfs := rfl
@[simp] theorem State.issueNext_pkHold (q : Request) (s : State) : (s.issueNext q).pkHold = s.pkHold := rfl
@[simp] theorem State.issueNext_pkCnt (q : Request) (s : State) : (s.issueNext q).pkCnt = s.pkCnt := rfl
@[simp] theorem State.issueNext_pkNbytes (q : Request) (s : State) : (s.issueNext q).pkNbytes = s.pkNbytes := rfl
@[simp] theorem State.issueNext_upPhase (q : Request) (s : State) : (s.issueNext q).upPhase = s.upPhase := rfl
@[simp] theorem State.issueNext_upN (q : Request) (s : State) : (s.issueNext q).upN = s.upN := rfl
@[simp] theorem State.issueNext_upAcc (q : Request) (s : State) : (s.issueNext q).upAcc = s.upAcc := rfl
@[simp] theorem State.issueNext_upNbytes (q : Request) (s : State) : (s.issueNext q).upNbytes = s.upNbytes := rfl
@[simp] theorem State.issueNext_upCnt (q : Request) (s : State) : (s.issueNext q).upCnt = s.upCnt := rfl
@[simp] theorem State.issueNext_refused (q : Request) (s : State) : (s.issueNext q).refused = s.refused := rfl
@[simp] theorem State.issueNext_faults (q : Request) (s : State) : (s.issueNext q).faults = s.faults := rfl
@[simp] theorem State.issueNext_result (q : Request) (s : State) : (s.issueNext q).result = s.result := rfl
@[simp] theorem State.issueNext_input (q : Request) (s : State) : (s.issueNext q).input = q :: s.input := rfl

/-! `codecPass` -/

@[simp] theorem State.codecPass_pkPhase (i : InstCode) (a : Addr) (k : CtrlCode) (s : State) : (s.codecPass i a k).pkPhase = s.pkPhase := rfl
@[simp] theorem State.codecPass_pkOfs (i : InstCode) (a : Addr) (k : CtrlCode) (s : State) : (s.codecPass i a k).pkOfs = s.pkOfs := rfl
@[simp] theorem State.codecPass_pkHold (i : InstCode) (a : Addr) (k : CtrlCode) (s : State) : (s.codecPass i a k).pkHold = s.pkHold := rfl
@[simp] theorem State.codecPass_pkCnt (i : InstCode) (a : Addr) (k : CtrlCode) (s : State) : (s.codecPass i a k).pkCnt = s.pkCnt := rfl
@[simp] theorem State.codecPass_pkNbytes (i : InstCode) (a : Addr) (k : CtrlCode) (s : State) : (s.codecPass i a k).pkNbytes = s.pkNbytes := rfl
@[simp] theorem State.codecPass_upPhase (i : InstCode) (a : Addr) (k : CtrlCode) (s : State) : (s.codecPass i a k).upPhase = s.upPhase := rfl
@[simp] theorem State.codecPass_upN (i : InstCode) (a : Addr) (k : CtrlCode) (s : State) : (s.codecPass i a k).upN = s.upN := rfl
@[simp] theorem State.codecPass_upAcc (i : InstCode) (a : Addr) (k : CtrlCode) (s : State) : (s.codecPass i a k).upAcc = s.upAcc := rfl
@[simp] theorem State.codecPass_upNbytes (i : InstCode) (a : Addr) (k : CtrlCode) (s : State) : (s.codecPass i a k).upNbytes = s.upNbytes := rfl
@[simp] theorem State.codecPass_upCnt (i : InstCode) (a : Addr) (k : CtrlCode) (s : State) : (s.codecPass i a k).upCnt = s.upCnt := rfl
@[simp] theorem State.codecPass_refused (i : InstCode) (a : Addr) (k : CtrlCode) (s : State) : (s.codecPass i a k).refused = s.refused := rfl
@[simp] theorem State.codecPass_faults (i : InstCode) (a : Addr) (k : CtrlCode) (s : State) : (s.codecPass i a k).faults = s.faults := rfl
@[simp] theorem State.codecPass_result (i : InstCode) (a : Addr) (k : CtrlCode) (s : State) : (s.codecPass i a k).result = .completed (.codec (encOutput Config.outW i a k) (dec (enc i a k))) := rfl
@[simp] theorem State.codecPass_input (i : InstCode) (a : Addr) (k : CtrlCode) (s : State) : (s.codecPass i a k).input = s.input := rfl

/-! `openPacker` -/

@[simp] theorem State.openPacker_pkPhase (s : State) : (s.openPacker).pkPhase = .active := rfl
@[simp] theorem State.openPacker_pkOfs (s : State) : (s.openPacker).pkOfs = .zero := rfl
@[simp] theorem State.openPacker_pkHold (s : State) : (s.openPacker).pkHold = 0#4 := rfl
@[simp] theorem State.openPacker_pkCnt (s : State) : (s.openPacker).pkCnt = 0 := rfl
@[simp] theorem State.openPacker_pkNbytes (s : State) : (s.openPacker).pkNbytes = 0 := rfl
@[simp] theorem State.openPacker_upPhase (s : State) : (s.openPacker).upPhase = s.upPhase := rfl
@[simp] theorem State.openPacker_upN (s : State) : (s.openPacker).upN = s.upN := rfl
@[simp] theorem State.openPacker_upAcc (s : State) : (s.openPacker).upAcc = s.upAcc := rfl
@[simp] theorem State.openPacker_upNbytes (s : State) : (s.openPacker).upNbytes = s.upNbytes := rfl
@[simp] theorem State.openPacker_upCnt (s : State) : (s.openPacker).upCnt = s.upCnt := rfl
@[simp] theorem State.openPacker_refused (s : State) : (s.openPacker).refused = s.refused := rfl
@[simp] theorem State.openPacker_faults (s : State) : (s.openPacker).faults = s.faults := rfl
@[simp] theorem State.openPacker_result (s : State) : (s.openPacker).result = s.result := rfl
@[simp] theorem State.openPacker_input (s : State) : (s.openPacker).input = s.input := rfl

/-! `openUnpacker` -/

@[simp] theorem State.openUnpacker_pkPhase (s : State) : (s.openUnpacker).pkPhase = s.pkPhase := rfl
@[simp] theorem State.openUnpacker_pkOfs (s : State) : (s.openUnpacker).pkOfs = s.pkOfs := rfl
@[simp] theorem State.openUnpacker_pkHold (s : State) : (s.openUnpacker).pkHold = s.pkHold := rfl
@[simp] theorem State.openUnpacker_pkCnt (s : State) : (s.openUnpacker).pkCnt = s.pkCnt := rfl
@[simp] theorem State.openUnpacker_pkNbytes (s : State) : (s.openUnpacker).pkNbytes = s.pkNbytes := rfl
@[simp] theorem State.openUnpacker_upPhase (s : State) : (s.openUnpacker).upPhase = .active := rfl
@[simp] theorem State.openUnpacker_upN (s : State) : (s.openUnpacker).upN = .zero := rfl
@[simp] theorem State.openUnpacker_upAcc (s : State) : (s.openUnpacker).upAcc = 0#8 := rfl
@[simp] theorem State.openUnpacker_upNbytes (s : State) : (s.openUnpacker).upNbytes = 0 := rfl
@[simp] theorem State.openUnpacker_upCnt (s : State) : (s.openUnpacker).upCnt = 0 := rfl
@[simp] theorem State.openUnpacker_refused (s : State) : (s.openUnpacker).refused = s.refused := rfl
@[simp] theorem State.openUnpacker_faults (s : State) : (s.openUnpacker).faults = s.faults := rfl
@[simp] theorem State.openUnpacker_result (s : State) : (s.openUnpacker).result = s.result := rfl
@[simp] theorem State.openUnpacker_input (s : State) : (s.openUnpacker).input = s.input := rfl

/-! `endUnpacker` -/

@[simp] theorem State.endUnpacker_pkPhase (s : State) : (s.endUnpacker).pkPhase = s.pkPhase := rfl
@[simp] theorem State.endUnpacker_pkOfs (s : State) : (s.endUnpacker).pkOfs = s.pkOfs := rfl
@[simp] theorem State.endUnpacker_pkHold (s : State) : (s.endUnpacker).pkHold = s.pkHold := rfl
@[simp] theorem State.endUnpacker_pkCnt (s : State) : (s.endUnpacker).pkCnt = s.pkCnt := rfl
@[simp] theorem State.endUnpacker_pkNbytes (s : State) : (s.endUnpacker).pkNbytes = s.pkNbytes := rfl
@[simp] theorem State.endUnpacker_upPhase (s : State) : (s.endUnpacker).upPhase = .done := rfl
@[simp] theorem State.endUnpacker_upN (s : State) : (s.endUnpacker).upN = .zero := rfl
@[simp] theorem State.endUnpacker_upAcc (s : State) : (s.endUnpacker).upAcc = 0#8 := rfl
@[simp] theorem State.endUnpacker_upNbytes (s : State) : (s.endUnpacker).upNbytes = s.upNbytes := rfl
@[simp] theorem State.endUnpacker_upCnt (s : State) : (s.endUnpacker).upCnt = s.upCnt := rfl
@[simp] theorem State.endUnpacker_refused (s : State) : (s.endUnpacker).refused = s.refused := rfl
@[simp] theorem State.endUnpacker_faults (s : State) : (s.endUnpacker).faults = s.faults := rfl
@[simp] theorem State.endUnpacker_result (s : State) : (s.endUnpacker).result = .completed .none := rfl
@[simp] theorem State.endUnpacker_input (s : State) : (s.endUnpacker).input = s.input := rfl

/-! `packWord`, `flushPacker` and `unpackByte` leave the other unit, the marks and the requests alone -/

@[simp] theorem State.packWord_pkPhase (v : Word) (s : State) : (s.packWord v).pkPhase = s.pkPhase := by
  unfold State.packWord; split <;> rfl
@[simp] theorem State.packWord_upPhase (v : Word) (s : State) : (s.packWord v).upPhase = s.upPhase := by
  unfold State.packWord; split <;> rfl
@[simp] theorem State.packWord_upN (v : Word) (s : State) : (s.packWord v).upN = s.upN := by
  unfold State.packWord; split <;> rfl
@[simp] theorem State.packWord_upAcc (v : Word) (s : State) : (s.packWord v).upAcc = s.upAcc := by
  unfold State.packWord; split <;> rfl
@[simp] theorem State.packWord_upNbytes (v : Word) (s : State) : (s.packWord v).upNbytes = s.upNbytes := by
  unfold State.packWord; split <;> rfl
@[simp] theorem State.packWord_upCnt (v : Word) (s : State) : (s.packWord v).upCnt = s.upCnt := by
  unfold State.packWord; split <;> rfl
@[simp] theorem State.packWord_refused (v : Word) (s : State) : (s.packWord v).refused = s.refused := by
  unfold State.packWord; split <;> rfl
@[simp] theorem State.packWord_faults (v : Word) (s : State) : (s.packWord v).faults = s.faults := by
  unfold State.packWord; split <;> rfl
@[simp] theorem State.packWord_input (v : Word) (s : State) : (s.packWord v).input = s.input := by
  unfold State.packWord; split <;> rfl

@[simp] theorem State.flushPacker_pkCnt (s : State) : (s.flushPacker).pkCnt = s.pkCnt := by
  unfold State.flushPacker; split <;> rfl
@[simp] theorem State.flushPacker_upPhase (s : State) : (s.flushPacker).upPhase = s.upPhase := by
  unfold State.flushPacker; split <;> rfl
@[simp] theorem State.flushPacker_upN (s : State) : (s.flushPacker).upN = s.upN := by
  unfold State.flushPacker; split <;> rfl
@[simp] theorem State.flushPacker_upAcc (s : State) : (s.flushPacker).upAcc = s.upAcc := by
  unfold State.flushPacker; split <;> rfl
@[simp] theorem State.flushPacker_upNbytes (s : State) : (s.flushPacker).upNbytes = s.upNbytes := by
  unfold State.flushPacker; split <;> rfl
@[simp] theorem State.flushPacker_upCnt (s : State) : (s.flushPacker).upCnt = s.upCnt := by
  unfold State.flushPacker; split <;> rfl
@[simp] theorem State.flushPacker_refused (s : State) : (s.flushPacker).refused = s.refused := by
  unfold State.flushPacker; split <;> rfl
@[simp] theorem State.flushPacker_faults (s : State) : (s.flushPacker).faults = s.faults := by
  unfold State.flushPacker; split <;> rfl
@[simp] theorem State.flushPacker_input (s : State) : (s.flushPacker).input = s.input := by
  unfold State.flushPacker; split <;> rfl

@[simp] theorem State.unpackByte_upPhase (b : Byte) (s : State) : (s.unpackByte b).upPhase = s.upPhase := by
  unfold State.unpackByte; split <;> rfl
@[simp] theorem State.unpackByte_pkPhase (b : Byte) (s : State) : (s.unpackByte b).pkPhase = s.pkPhase := by
  unfold State.unpackByte; split <;> rfl
@[simp] theorem State.unpackByte_pkOfs (b : Byte) (s : State) : (s.unpackByte b).pkOfs = s.pkOfs := by
  unfold State.unpackByte; split <;> rfl
@[simp] theorem State.unpackByte_pkHold (b : Byte) (s : State) : (s.unpackByte b).pkHold = s.pkHold := by
  unfold State.unpackByte; split <;> rfl
@[simp] theorem State.unpackByte_pkCnt (b : Byte) (s : State) : (s.unpackByte b).pkCnt = s.pkCnt := by
  unfold State.unpackByte; split <;> rfl
@[simp] theorem State.unpackByte_pkNbytes (b : Byte) (s : State) : (s.unpackByte b).pkNbytes = s.pkNbytes := by
  unfold State.unpackByte; split <;> rfl
@[simp] theorem State.unpackByte_refused (b : Byte) (s : State) : (s.unpackByte b).refused = s.refused := by
  unfold State.unpackByte; split <;> rfl
@[simp] theorem State.unpackByte_faults (b : Byte) (s : State) : (s.unpackByte b).faults = s.faults := by
  unfold State.unpackByte; split <;> rfl
@[simp] theorem State.unpackByte_input (b : Byte) (s : State) : (s.unpackByte b).input = s.input := by
  unfold State.unpackByte; split <;> rfl

@[simp] theorem State.flushPacker_pkPhase (s : State) : s.flushPacker.pkPhase = .done := by
  unfold State.flushPacker; split <;> rfl
@[simp] theorem State.flushPacker_pkOfs (s : State) : s.flushPacker.pkOfs = .zero := by
  unfold State.flushPacker; split <;> rfl
@[simp] theorem State.flushPacker_pkHold (s : State) : s.flushPacker.pkHold = 0#4 := by
  unfold State.flushPacker; split <;> rfl
@[simp] theorem State.packWord_pkCnt (v : Word) (s : State) : (s.packWord v).pkCnt = s.pkCnt + 1 := by
  unfold State.packWord; split <;> rfl
@[simp] theorem State.unpackByte_upNbytes (b : Byte) (s : State) :
    (s.unpackByte b).upNbytes = s.upNbytes + 1 := by
  unfold State.unpackByte; split <;> rfl

end Sys2Proof.Machine
end

