-- ==== Sys2Proof/Laws/Ops.lean ====
section
/-! SUPPORT. For each shared operation, what it can do, said once. -/

namespace Sys2Proof.Machine

open Sys2Proof Host

/-! ## The phase guards -/

@[simp] theorem requirePacking_active {s : State} (h : s.pkPhase = .active) (body : State → State) :
    requirePacking s body = .next (body s) := by
  simp [requirePacking, h]

@[simp] theorem requirePacking_closed {s : State} (h : s.pkPhase ≠ .active) (body : State → State) :
    requirePacking s body = .next (s.refuse .noOpenStream) := by
  simp [requirePacking, h]

/-- The packer's guard answers the body's state, or the refused state; it never stops a run. -/
theorem requirePacking_cases {s t : State} {body : State → State}
    (h : requirePacking s body = .next t) :
    (s.pkPhase = .active ∧ t = body s) ∨
      (s.pkPhase ≠ .active ∧ t = s.refuse .noOpenStream) := by
  by_cases ha : s.pkPhase = .active
  · rw [requirePacking_active ha] at h
    exact .inl ⟨ha, (Outcome.next.inj h).symm⟩
  · rw [requirePacking_closed ha] at h
    exact .inr ⟨ha, (Outcome.next.inj h).symm⟩

@[simp] theorem requireUnpacking_active {s : State} (h : s.upPhase = .active) (body : State → State) :
    requireUnpacking s body = .next (body s) := by
  simp [requireUnpacking, h]

@[simp] theorem requireUnpacking_closed {s : State} (h : s.upPhase ≠ .active) (body : State → State) :
    requireUnpacking s body = .next (s.refuse .noOpenStream) := by
  simp [requireUnpacking, h]

/-- The unpacker's guard answers the body's state, or the refused state; it never stops a run. -/
theorem requireUnpacking_cases {s t : State} {body : State → State}
    (h : requireUnpacking s body = .next t) :
    (s.upPhase = .active ∧ t = body s) ∨
      (s.upPhase ≠ .active ∧ t = s.refuse .noOpenStream) := by
  by_cases ha : s.upPhase = .active
  · rw [requireUnpacking_active ha] at h
    exact .inl ⟨ha, (Outcome.next.inj h).symm⟩
  · rw [requireUnpacking_closed ha] at h
    exact .inr ⟨ha, (Outcome.next.inj h).symm⟩

/-! ## The packer's moves -/

theorem packWord_at_zero {s : State} (h : s.pkOfs = .zero) (v : Word) :
    s.packWord v =
      { s with
        pkHold := v.extractLsb' 0 4, pkOfs := .four, pkNbytes := s.pkNbytes + 1, pkCnt := s.pkCnt + 1
        result := .completed (.bytes [v.extractLsb' 4 8]) } := by
  simp [State.packWord, h]

theorem packWord_at_four {s : State} (h : s.pkOfs = .four) (v : Word) :
    s.packWord v =
      { s with
        pkHold := 0#4, pkOfs := .zero, pkNbytes := s.pkNbytes + 2, pkCnt := s.pkCnt + 1
        result := .completed (.bytes [s.pkHold ++ v.extractLsb' 8 4, v.extractLsb' 0 8]) } := by
  simp [State.packWord, h]

theorem flushPacker_at_zero {s : State} (h : s.pkOfs = .zero) :
    s.flushPacker =
      { s with pkHold := 0#4, pkOfs := .zero, pkPhase := .done, result := .completed (.bytes []) } := by
  simp [State.flushPacker, h]

theorem flushPacker_at_four {s : State} (h : s.pkOfs = .four) :
    s.flushPacker =
      { s with
        pkNbytes := s.pkNbytes + 1, pkHold := 0#4, pkOfs := .zero, pkPhase := .done
        result := .completed (.bytes [s.pkHold ++ 0#4]) } := by
  simp [State.flushPacker, h]

/-! ## The unpacker's moves -/

theorem unpackByte_at_zero {s : State} (h : s.upN = .zero) (b : Byte) :
    s.unpackByte b =
      { s with
        upAcc := b, upN := .eight, upNbytes := s.upNbytes + 1, result := .completed (.words []) } := by
  simp [State.unpackByte, h]

theorem unpackByte_at_eight {s : State} (h : s.upN = .eight) (b : Byte) :
    s.unpackByte b =
      { s with
        upAcc := (b.extractLsb' 0 4).setWidth 8, upN := .four
        upCnt := s.upCnt + 1, upNbytes := s.upNbytes + 1
        result := .completed (.words [dec (s.upAcc ++ b.extractLsb' 4 4)]) } := by
  simp [State.unpackByte, h]

theorem unpackByte_at_four {s : State} (h : s.upN = .four) (b : Byte) :
    s.unpackByte b =
      { s with
        upAcc := 0#8, upN := .zero, upCnt := s.upCnt + 1, upNbytes := s.upNbytes + 1
        result := .completed (.words [dec (s.upAcc.extractLsb' 0 4 ++ b)]) } := by
  simp [State.unpackByte, h]

/-! ## Taking a request -/

theorem fetch_of_empty {s : State} (h : s.input = []) : s.fetch = none := by
  simp [State.fetch, h]

theorem fetch_of_issued {s : State} {q : Request} {rest : List Request} (h : s.input = q :: rest) :
    s.fetch = some (q, { s with input := rest }) := by
  simp [State.fetch, h]

/-- Everything a step that answers a next state can have done. -/
theorem step_cases {s u : State} (h : step s = .next u) :
    (s.input = [] ∧ s.stuck = false ∧ u = s.idleStep) ∨
    ∃ q rest, s.input = q :: rest ∧
      ((q.rst = true ∧ u = State.applyReset { s with input := rest }) ∨
       (q.rst = false ∧ s.stuck = false ∧ ∃ i, decode q = .ok i ∧ exec i { s with input := rest } = .next u) ∨
       (q.rst = false ∧ s.stuck = false ∧ (∃ c, decode q = .error (.reservedCommand c)) ∧
          u = State.refuse .reservedCommand { s with input := rest })) := by
  unfold step at h
  rcases hin : s.input with _ | ⟨q, rest⟩
  · rw [fetch_of_empty hin] at h
    by_cases hs : s.stuck = true
    · simp [hs] at h
    · simp [hs] at h
      exact .inl ⟨rfl, by simpa using hs, h.symm⟩
  · rw [fetch_of_issued hin] at h
    refine .inr ⟨q, rest, rfl, ?_⟩
    by_cases hr : q.rst = true
    · simp [hr] at h
      exact .inl ⟨hr, h.symm⟩
    · by_cases hs : s.stuck = true
      · simp [hr, hs] at h
      · have hr' : q.rst = false := by simpa using hr
        have hs' : s.stuck = false := by simpa using hs
        rcases hd : decode q with ⟨⟨c⟩⟩ | i
        · simp [hr', hs', hd] at h
          exact .inr (.inr ⟨hr', hs', ⟨c, rfl⟩, h.symm⟩)
        · simp [hr', hs', hd] at h
          exact .inr (.inl ⟨hr', hs', i, rfl, h⟩)

end Sys2Proof.Machine
end

