-- ==== Sys2Proof/Laws/Exec.lean ====
section
/-! SUPPORT. What an instruction can do, said once: the seven commands that touch a stream unit, and all others, which
only deliver a response that does not depend on the state. -/

namespace Sys2Proof.Machine

open Sys2Proof Host

/-- Every instruction but the seven stream commands completes with a response fixed by its operands, in every
state; that response is on neither `out_bytes` nor `out_words`. -/
theorem exec_cases (i : Instr) :
    (∃ r, (∀ s, exec i s = .next (s.complete r)) ∧
      isPackerCommand i = false ∧ isUnpackerCommand i = false ∧
      needsPacking i = false ∧ needsUnpacking i = false ∧
      (CommandResult.completed r).bytesOut = [] ∧ (CommandResult.completed r).wordsOut = []) ∨
    i = .pkStart ∨ (∃ c a k, i = .pkWord c a k) ∨ i = .pkComment ∨ i = .pkFlush ∨
    i = .upStart ∨ (∃ b, i = .upByte b) ∨ i = .upEnd := by
  cases i
  case pkStart => simp
  case pkWord => simp
  case pkComment => simp
  case pkFlush => simp
  case upStart => simp
  case upByte => simp
  case upEnd => simp
  all_goals exact .inl ⟨_, fun _ => rfl, rfl, rfl, rfl, rfl, rfl, rfl⟩

/-- The meaning of each stream command in terms of the shared operations. -/
theorem exec_pkStart (s : State) : exec .pkStart s = .next (s.openPacker.complete .none) := rfl

theorem exec_pkWord (c : InstCode) (a : Addr) (k : CtrlCode) (s : State) :
    exec (.pkWord c a k) s = requirePacking s (State.packWord (enc c a k)) := rfl

theorem exec_pkComment (s : State) : exec .pkComment s = requirePacking s (State.complete .none) := rfl

theorem exec_pkFlush (s : State) : exec .pkFlush s = requirePacking s State.flushPacker := rfl

theorem exec_upStart (s : State) : exec .upStart s = .next (s.openUnpacker.complete .none) := rfl

theorem exec_upByte (b : Byte) (s : State) :
    exec (.upByte b) s = requireUnpacking s (State.unpackByte b) := rfl

theorem exec_upEnd (s : State) : exec .upEnd s = requireUnpacking s State.endUnpacker := rfl

/-! ## Runs -/

@[simp] theorem runCommands_nil (s : State) : runCommands [] s = some ([], s) := rfl

/-- A run of one command more, when the command answers a next state. -/
theorem runCommands_cons {i : Instr} {s t : State} (h : exec i s = .next t) (rest : List Instr) :
    runCommands (i :: rest) s =
      (runCommands rest t).map (fun p => (t.result :: p.1, p.2)) := by
  simp only [runCommands, h]
  cases runCommands rest t <;> rfl

@[simp] theorem packOutput_nil : packOutput [] = [] := rfl

@[simp] theorem packOutput_cons (r : CommandResult) (rs : List CommandResult) :
    packOutput (r :: rs) = r.bytesOut ++ packOutput rs := rfl

@[simp] theorem unpackOutput_nil : unpackOutput [] = [] := rfl

@[simp] theorem unpackOutput_cons (r : CommandResult) (rs : List CommandResult) :
    unpackOutput (r :: rs) = r.wordsOut ++ unpackOutput rs := rfl

end Sys2Proof.Machine
end

