-- ==== Sys2Proof/Laws/PerInstr.lean ====
section
/-! SUPPORT. The family RowMatch, one lemma for each constructor of Instr: an instruction's encoding falls under its
row of spec/opcode_table.json (30_encoding.md R54 to R69, R81). -/

namespace Sys2Proof.Laws.RowMatch

open Sys2Proof

/-- The instruction's encoding falls under its row of the opcode table. -/
def Statement (i : Instr) : Prop := i.row.covers (encode i) = true

/-- A word of code `c` falls under a word row whose match is `c << 8`. -/
theorem covers_word (name : String) (c : InstCode) (a : Addr) (k : CtrlCode) (m : BitVec 12)
    (hm : c.setWidth 12 <<< 8 = m) :
    (Row.mk name .word12 m 0xF00#12).covers (.ofWord (enc c a k)) = true := by
  simp [Row.covers, Request.tableBits, Request.ofWord, enc_and_mask, hm]

theorem nop0 (addr : Addr) (ctrl : CtrlCode) : Statement (.nop0 addr ctrl) :=
  covers_word _ _ _ _ _ rfl

theorem ld (addr : Addr) (ctrl : CtrlCode) : Statement (.ld addr ctrl) :=
  covers_word _ _ _ _ _ rfl

theorem add (addr : Addr) (ctrl : CtrlCode) : Statement (.add addr ctrl) :=
  covers_word _ _ _ _ _ rfl

theorem sub (addr : Addr) (ctrl : CtrlCode) : Statement (.sub addr ctrl) :=
  covers_word _ _ _ _ _ rfl

theorem one (addr : Addr) (ctrl : CtrlCode) : Statement (.one addr ctrl) :=
  covers_word _ _ _ _ _ rfl

theorem nand (addr : Addr) (ctrl : CtrlCode) : Statement (.nand addr ctrl) :=
  covers_word _ _ _ _ _ rfl

theorem or (addr : Addr) (ctrl : CtrlCode) : Statement (.or addr ctrl) :=
  covers_word _ _ _ _ _ rfl

theorem xor (addr : Addr) (ctrl : CtrlCode) : Statement (.xor addr ctrl) :=
  covers_word _ _ _ _ _ rfl

theorem sto (addr : Addr) (ctrl : CtrlCode) : Statement (.sto addr ctrl) :=
  covers_word _ _ _ _ _ rfl

theorem stoc (addr : Addr) (ctrl : CtrlCode) : Statement (.stoc addr ctrl) :=
  covers_word _ _ _ _ _ rfl

theorem ien (addr : Addr) (ctrl : CtrlCode) : Statement (.ien addr ctrl) :=
  covers_word _ _ _ _ _ rfl

theorem oen (addr : Addr) (ctrl : CtrlCode) : Statement (.oen addr ctrl) :=
  covers_word _ _ _ _ _ rfl

theorem ioc (addr : Addr) (ctrl : CtrlCode) : Statement (.ioc addr ctrl) :=
  covers_word _ _ _ _ _ rfl

theorem rtn (addr : Addr) (ctrl : CtrlCode) : Statement (.rtn addr ctrl) :=
  covers_word _ _ _ _ _ rfl

theorem skz (addr : Addr) (ctrl : CtrlCode) : Statement (.skz addr ctrl) :=
  covers_word _ _ _ _ _ rfl

theorem nopf (addr : Addr) (ctrl : CtrlCode) : Statement (.nopf addr ctrl) :=
  covers_word _ _ _ _ _ rfl

theorem wenc (inst : InstCode) (addr : Addr) (ctrl : CtrlCode) : Statement (.wenc inst addr ctrl) := by
  simp [Statement, Instr.row, Row.covers, encode, Request.tableBits]

theorem wdec (word : BitVec Config.inW) : Statement (.wdec word) := by
  simp [Statement, Instr.row, Row.covers, encode, Request.tableBits]

theorem acls (addr : Addr) : Statement (.acls addr) := by
  simp [Statement, Instr.row, Row.covers, encode, Request.tableBits]

theorem pkStart : Statement (.pkStart) := by
  simp [Statement, Instr.row, Row.covers, encode, Request.tableBits]

theorem pkWord (inst : InstCode) (addr : Addr) (ctrl : CtrlCode) : Statement (.pkWord inst addr ctrl) := by
  simp [Statement, Instr.row, Row.covers, encode, Request.tableBits]

theorem pkComment : Statement (.pkComment) := by
  simp [Statement, Instr.row, Row.covers, encode, Request.tableBits]

theorem pkFlush : Statement (.pkFlush) := by
  simp [Statement, Instr.row, Row.covers, encode, Request.tableBits]

theorem upStart : Statement (.upStart) := by
  simp [Statement, Instr.row, Row.covers, encode, Request.tableBits]

theorem upByte (byte : Byte) : Statement (.upByte byte) := by
  simp [Statement, Instr.row, Row.covers, encode, Request.tableBits]

theorem upEnd : Statement (.upEnd) := by
  simp [Statement, Instr.row, Row.covers, encode, Request.tableBits]

end Sys2Proof.Laws.RowMatch
end

