-- ==== Sys2Proof/Laws/Toolchain.lean ====
section
/-! SUPPORT. What the mnemonic table's own proof gives: distinct lower-case names, `sto` among them. -/

namespace Sys2Proof.Machine

open Sys2Proof

theorem mem_allOpcodes (o : Opcode) : o ∈ allOpcodes := by cases o <;> decide

/-- The three facts of an allowed table, taken apart once. -/
theorem spelling_allowed (p : AsmParams) :
    (∀ o, (spelling p o).map Char.toLower = spelling p o ∧ mnemonicReadable (spelling p o) = true) ∧
    (allOpcodes.map (spelling p)).Nodup ∧ ∃ o, spelling p o = ['s', 't', 'o'] := by
  have h := p.mnemonics.allowed
  simp only [MnemonicLabels.wellFormed, Bool.and_eq_true, decide_eq_true_eq, List.all_eq_true,
    List.contains_iff_mem] at h
  obtain ⟨⟨hall, hnodup⟩, hsto⟩ := h
  refine ⟨fun o => hall _ (List.mem_map_of_mem (mem_allOpcodes o)), hnodup, ?_⟩
  obtain ⟨o, _, ho⟩ := List.mem_map.1 hsto
  exact ⟨o, ho⟩

/-- Two variants with one spelling are one variant. -/
theorem spelling_injective (p : AsmParams) {o o' : Opcode} (h : spelling p o = spelling p o') : o = o' :=
  List.inj_on_of_nodup_map (spelling_allowed p).2.1 (mem_allOpcodes o) (mem_allOpcodes o') h

/-- What a match of a mnemonic field says. -/
theorem mnemonicOf_spells {p : AsmParams} {tok : List Char} {o : Opcode} (h : mnemonicOf p tok = some o) :
    tok.map Char.toLower = spelling p o := by
  simpa using List.find?_some h

end Sys2Proof.Machine
end

