-- ==== Sys2Proof/Tests/Slice0.lean ====
section
/-! SUPPORT. Tests: well-formedness checks that refuse, words written out from the spec's encodings, one step of each
command on a small state, and a witness for the hypotheses of each statement. Expected values come from
spec/95_test_vectors.md and from the examples of the rules named. -/

namespace Sys2Proof.Tests

open Sys2Proof Sys2Proof.Machine Host

/-! ## Helpers -/

/-- The next state of an outcome, if it is one. -/
def nextOf : Outcome State Fault Refusal → Option State
  | .next t => some t
  | _ => none

/-- An open packing stream with the given offset, held bits and counters. -/
def packing (ofs : PkOfs) (hold : BitVec 4) (cnt nbytes : Nat) : State :=
  { State.reset with pkPhase := .active, pkOfs := ofs, pkHold := hold, pkCnt := cnt, pkNbytes := nbytes }

/-- An open unpacking stream with the given offset, held bits and counters. -/
def unpacking (n : UpN) (acc : BitVec 8) (nbytes cnt : Nat) : State :=
  { State.reset with upPhase := .active, upN := n, upAcc := acc, upNbytes := nbytes, upCnt := cnt }

/-- The result of an instruction in a state, and the fields its unit is left with. -/
def packerAfter (i : Instr) (s : State) :
    Option (CommandResult × (StreamPhase × PkOfs × BitVec 4 × Nat × Nat)) :=
  (nextOf (exec i s)).map (fun t => (t.result, t.packerFields))

def unpackerAfter (i : Instr) (s : State) :
    Option (CommandResult × (StreamPhase × UpN × BitVec 8 × Nat × Nat)) :=
  (nextOf (exec i s)).map (fun t => (t.result, t.unpackerFields))

def resultAfter (i : Instr) (s : State) : Option CommandResult :=
  (nextOf (exec i s)).map (·.result)

/-- The word a codec pass delivers, as a number; 0x1000 for any other result. -/
def codecWord : Option CommandResult → Nat
  | some (.completed (.codec w _)) => w.toNat
  | _ => 0x1000

/-- A command's ports with unused inputs 0 and `rst` low. -/
def command (cmd : BitVec 4) : Ports := { Ports.zero with cmd := cmd }

/-- Ports with `rst` asserted over a PK_START. -/
def resetOverStart : Ports := { Ports.zero with rst := true, cmd := 0x4 }

/-! ## Well-formedness: each check refuses an ill-formed value -/

theorem test_instInRange_refuses_16 : instInRange 16 = false ∧ instInRange 15 = true := by decide
theorem test_addrInRange_refuses_64 : addrInRange 64 = false ∧ addrInRange 63 = true := by decide
theorem test_ctrlInRange_refuses_4 : ctrlInRange 4 = false ∧ ctrlInRange 3 = true := by decide
theorem test_byteInRange_refuses_256 : byteInRange 256 = false ∧ byteInRange 255 = true := by decide
theorem test_wordInputInRange_refuses_2_pow_32 :
    wordInputInRange (2 ^ 32) = false ∧ wordInputInRange (2 ^ 32 - 1) = true := by decide
theorem test_fieldsInRange_refuses_each :
    fieldsInRange 16 63 3 = false ∧ fieldsInRange 15 64 3 = false ∧ fieldsInRange 15 63 4 = false ∧
    fieldsInRange 15 63 3 = true := by decide

/-! ## Decoding: one written-out word for each constructor (the examples of R54 to R69; R81) -/

theorem test_decode_nop0 : decodeTableWord 16 0b000011111101 = some (.nop0 0o77 1) := by decide
theorem test_decode_ld : decodeTableWord 16 0b000100000100 = some (.ld 0o01 0) := by decide
theorem test_decode_add : decodeTableWord 16 0b001000001000 = some (.add 0o02 0) := by decide
theorem test_decode_sub : decodeTableWord 16 0b001100001100 = some (.sub 0o03 0) := by decide
theorem test_decode_one : decodeTableWord 16 0b010011111100 = some (.one 0o77 0) := by decide
theorem test_decode_nand : decodeTableWord 16 0b010100010100 = some (.nand 0o05 0) := by decide
theorem test_decode_or : decodeTableWord 16 0b011000011000 = some (.or 0o06 0) := by decide
theorem test_decode_xor : decodeTableWord 16 0b011100011100 = some (.xor 0o07 0) := by decide
theorem test_decode_sto : decodeTableWord 16 0b100000100000 = some (.sto 0o10 0) := by decide
theorem test_decode_stoc : decodeTableWord 16 0b100110100000 = some (.stoc 0o50 0) := by decide
theorem test_decode_ien : decodeTableWord 16 0b101000101000 = some (.ien 0o12 0) := by decide
theorem test_decode_oen : decodeTableWord 16 0b101100101100 = some (.oen 0o13 0) := by decide
theorem test_decode_ioc : decodeTableWord 16 0b110000110000 = some (.ioc 0o14 0) := by decide
theorem test_decode_rtn : decodeTableWord 16 0b110100110100 = some (.rtn 0o15 0) := by decide
theorem test_decode_skz : decodeTableWord 16 0b111000111000 = some (.skz 0o16 0) := by decide
theorem test_decode_nopf : decodeTableWord 16 0b111111111111 = some (.nopf 0o77 3) := by decide
theorem test_decode_wenc :
    decode (.ports ⟨false, 0b0001, 0b1001, 0b101000, 0b10, 0, 0⟩) = .ok (.wenc 9 40 2) := by decide
theorem test_decode_wdec :
    decode (.ports ⟨false, 0b0010, 0, 0, 0, 0xFFFFF9A0, 0⟩) = .ok (.wdec 0xFFFFF9A0) := by decide
theorem test_decode_acls :
    decode (.ports ⟨false, 0b0011, 0, 0b111000, 0, 0, 0⟩) = .ok (.acls 56) := by decide
theorem test_decode_pkStart : decodeTableWord 8 0b0100 = some .pkStart := by decide
theorem test_decode_pkWord :
    decode (.ports ⟨false, 0b0101, 0b0100, 0b111111, 0b00, 0, 0⟩) = .ok (.pkWord 4 63 0) := by decide
theorem test_decode_pkComment : decodeTableWord 8 0b0110 = some .pkComment := by decide
theorem test_decode_pkFlush : decodeTableWord 8 0b0111 = some .pkFlush := by decide
theorem test_decode_upStart : decodeTableWord 8 0b1000 = some .upStart := by decide
theorem test_decode_upByte :
    decode (.ports ⟨false, 0b1001, 0, 0, 0, 0, 0b11001001⟩) = .ok (.upByte 0xC9) := by decide
theorem test_decode_upEnd : decodeTableWord 8 0b1010 = some .upEnd := by decide

/-- R82: the six reserved codes. -/
theorem test_decode_reserved :
    [0x0, 0xB, 0xC, 0xD, 0xE, 0xF].map (decodeTableWord 8) = [none, none, none, none, none, none] := by
  decide

/-- R99: bits 12 and up of a word input are ignored. -/
theorem test_decode_ignores_high_bits : decodeTableWord 16 0xF4FC = some (.one 63 0) := by decide

/-! ## One step of each command (95_test_vectors.md section 2) -/

/-- V-WENC, three rows. -/
theorem test_wenc :
    resultAfter (.wenc 9 40 0) State.reset = some (.completed (.word 0x000009A0)) ∧
    resultAfter (.wenc 8 0 2) State.reset = some (.completed (.word 0x00000802)) ∧
    resultAfter (.wenc 4 39 2) State.reset = some (.completed (.word 0x0000049E)) := by decide

/-- V-WDEC, four rows. -/
theorem test_wdec :
    resultAfter (.wdec 0x12345678) State.reset = some (.completed (.fields ⟨6, 30, 0, .general⟩)) ∧
    resultAfter (.wdec 0x00000ABC) State.reset = some (.completed (.fields ⟨10, 47, 0, .parallelRead⟩)) ∧
    resultAfter (.wdec 0x000000E6) State.reset = some (.completed (.fields ⟨0, 57, 2, .rr⟩)) ∧
    resultAfter (.wdec 0x000000EB) State.reset = some (.completed (.fields ⟨0, 58, 3, .highInput⟩)) := by
  decide

/-- V-ACLS, the upper end of external input and QRR. -/
theorem test_acls :
    resultAfter (.acls 55) State.reset = some (.completed (.aclass .externalInput)) ∧
    resultAfter (.acls 56) State.reset = some (.completed (.aclass .qrr)) := by decide

/-- R53 with V-WENC and V-WDEC: `STOC 0o50 0b0` is `0x9A0`, (9, 40, 0, 1). -/
theorem test_stoc_passes_codec :
    resultAfter (.stoc 0o50 0) State.reset =
      some (.completed (.codec 0x000009A0 ⟨9, 40, 0, .parallelRead⟩)) := by decide

/-- R54 to R69: each row's own code reaches the codec, on the address 63 and the control code 3. -/
theorem test_word_rows_codes :
    ([.nop0 63 3, .ld 63 3, .add 63 3, .sub 63 3, .one 63 3, .nand 63 3, .or 63 3, .xor 63 3,
      .sto 63 3, .stoc 63 3, .ien 63 3, .oen 63 3, .ioc 63 3, .rtn 63 3, .skz 63 3, .nopf 63 3].map
        (fun i => codecWord (resultAfter i State.reset))) =
      [0x0FF, 0x1FF, 0x2FF, 0x3FF, 0x4FF, 0x5FF, 0x6FF, 0x7FF,
       0x8FF, 0x9FF, 0xAFF, 0xBFF, 0xCFF, 0xDFF, 0xEFF, 0xFFF] := by decide

/-- V-PK-C4: PK_START abandons an open stream. -/
theorem test_pkStart_abandons :
    packerAfter .pkStart (packing .four 0xF 1 1) =
      some (.completed .none, .active, .zero, 0, 0, 0) := by decide

/-- P1, first PK_WORD. -/
theorem test_pkWord_at_zero :
    packerAfter (.pkWord 4 63 0) (packing .zero 0 0 0) =
      some (.completed (.bytes [0x4F]), .active, .four, 0xC, 1, 1) := by decide

/-- P1, second PK_WORD. -/
theorem test_pkWord_at_four :
    packerAfter (.pkWord 9 40 0) (packing .four 0xC 1 1) =
      some (.completed (.bytes [0xC9, 0xA0]), .active, .zero, 0, 2, 3) := by decide

/-- V-PK-C2: PK_WORD from RESET is refused, the packer unchanged. -/
theorem test_pkWord_refused :
    packerAfter (.pkWord 1 8 3) State.reset = some (.refused .noOpenStream, .idle, .zero, 0, 0, 0) ∧
    (nextOf (exec (.pkWord 1 8 3) State.reset)).map (·.refused) = some true := by decide

/-- P2: PK_COMMENT with a nibble held. -/
theorem test_pkComment :
    packerAfter .pkComment (packing .four 0xC 1 1) =
      some (.completed .none, .active, .four, 0xC, 1, 1) := by decide

/-- P1: PK_FLUSH after three words. -/
theorem test_pkFlush_pads :
    packerAfter .pkFlush (packing .four 0xD 3 4) =
      some (.completed (.bytes [0xD0]), .done, .zero, 0, 3, 5) := by decide

/-- P2: PK_FLUSH after two words. -/
theorem test_pkFlush_without_pad :
    packerAfter .pkFlush (packing .zero 0 2 3) =
      some (.completed (.bytes []), .done, .zero, 0, 2, 3) := by decide

/-- R119's corner case: UP_START abandons an open stream. -/
theorem test_upStart_abandons :
    unpackerAfter .upStart (unpacking .eight 0xAB 1 0) =
      some (.completed .none, .active, .zero, 0, 0, 0) := by decide

/-- V-UP, `4F C9 A0 0F D0`: the second byte. -/
theorem test_upByte_at_eight :
    unpackerAfter (.upByte 0xC9) (unpacking .eight 0x4F 1 0) =
      some (.completed (.words [⟨4, 63, 0, .lowInput⟩]), .active, .four, 0x09, 2, 1) := by decide

/-- V-UP, `4F C9 A0 0F D0`: the third byte. -/
theorem test_upByte_at_four :
    unpackerAfter (.upByte 0xA0) (unpacking .four 0x09 2 1) =
      some (.completed (.words [⟨9, 40, 0, .parallelRead⟩]), .active, .zero, 0x00, 3, 2) := by decide

/-- V-UP, `AB CD`: UP_END discards the nibble `D`, non-zero. -/
theorem test_upEnd_discards :
    unpackerAfter .upEnd (unpacking .four 0x0D 2 1) =
      some (.completed .none, .done, .zero, 0, 2, 1) := by decide

/-- V-UP-C1: UP_END from RESET is refused. -/
theorem test_upEnd_refused : resultAfter .upEnd State.reset = some (.refused .noOpenStream) := by decide

/-! ## The step -/

/-- V-CMD-1. -/
theorem test_step_reserved :
    (nextOf (step (State.reset.withFetchWord 8 0xF))).map (fun t => (t.result, t.refused)) =
      some (.refused .reservedCommand, true) := by decide

/-- V-CMD-2: RESET with a nibble held, over a PK_START. -/
theorem test_step_reset_wins :
    nextOf (step ((packing .four 0xF 1 1).issueNext (.ports resetOverStart))) =
      some { State.reset with result := .completed .none } := by decide

/-- The first instruction from launch is the one the host issues. -/
theorem test_step_runs_placed_word :
    nextOf (step (State.reset.withFetchWord 16 0x9A0)) = nextOf (exec (.stoc 40 0) State.reset) := by
  decide

/-- With nothing issued the block idles. -/
theorem test_step_idles : nextOf (step State.reset) = some State.reset := by decide

/-! ## Streams (95_test_vectors.md 2.4, 2.5) -/

theorem test_encodeStream_source_example :
    encodeStream [.word 4 63 0, .comment [], .word 9 40 0, .word 0 63 1] =
      [0x4F, 0xC9, 0xA0, 0x0F, 0xD0] := by decide

theorem test_decodeStream_ignores_residue :
    decodeStream [0x4F, 0xC9, 0xA0, 0x0F, 0xDF] =
      [⟨4, 63, 0, .lowInput⟩, ⟨9, 40, 0, .parallelRead⟩, ⟨0, 63, 1, .lowInput⟩] := by decide

/-! ## The toolchain's language (95_test_vectors.md L1-3, L1-4, L1-7) -/

/-- One choice of the open parameters, with the spec's labels, for tests on texts that do not depend on them. -/
def someParams : AsmParams :=
  ⟨default, .reject, false, false, false, false, false, .chars, .expectedCtrl⟩

theorem test_numeral_bases :
    numeral someParams ['0', 'b', '1', '1', '1', '1', '1', '1'] = some 63 ∧
    numeral someParams ['0', 'o', '7', '7'] = some 63 ∧
    numeral someParams ['0', 'h', '3', 'f'] = some 63 ∧
    numeral someParams ['9', '9'] = none := by decide

theorem test_mnemonic_case :
    [['o', 'n', 'e'], ['O', 'n', 'e'], ['O', 'N', 'E']].map (mnemonicOf someParams) =
      [some .one, some .one, some .one] ∧
    mnemonicOf someParams ['s', 't', 'o'] = some .sto ∧
    mnemonicOf someParams ['s', 't', 'o', 'c'] = some .stoc := by decide

theorem test_parse_word_line :
    parseAssembly someParams ['O', 'N', 'E', ' ', '0', 'o', '7', '7', ' ', '0', 'b', '0', '\n'] =
      .ok [.word 4 63 0] := by decide

theorem test_parse_comment_lines :
    parseAssembly someParams [';', ' ', 'h', 'i', ' ', '\n', ';', 'x'] =
      .ok [.comment [' ', 'h', 'i'], .comment ['x']] := by decide

/-- Log entry 11: the offset counts the leading blank line of the given text. -/
theorem test_parse_error_offset_from_given_text :
    parseAssembly someParams ['\n', 'F', 'O', 'O'] = .error ⟨.expectedInst, 1⟩ := by decide

theorem test_parse_errors :
    parseAssembly someParams ['F', 'O', 'O', ' ', '0', 'o', '1', ' ', '0', 'b', '0'] =
      .error ⟨.expectedInst, 0⟩ ∧
    parseAssembly someParams ['O', 'N', 'E', ' ', '9', '9', ' ', '0', 'b', '0'] =
      .error ⟨.expectedAddr, 4⟩ := by decide

/-! ## Witnesses: a state and operands that meet each statement's hypotheses -/

theorem witness_WordFormatFields : (3 : Nat) < 4 ∧ (5 : Nat) < 6 ∧ (1 : Nat) < 2 := by decide

theorem witness_ClassRanges :
    (39 : Addr).toNat ≤ 39 ∧ (40 ≤ (40 : Addr).toNat ∧ (47 : Addr).toNat ≤ 47) ∧
    (48 ≤ (48 : Addr).toNat ∧ (55 : Addr).toNat ≤ 55) ∧ (56 : Addr).toNat = 56 ∧
    (57 : Addr).toNat = 57 ∧ (58 ≤ (58 : Addr).toNat ∧ (59 : Addr).toNat ≤ 59) ∧
    60 ≤ (60 : Addr).toNat := by decide

theorem witness_WencResult : (12 : Nat) ≤ 12 ∧ encOutput 12 15 63 3 = 0xFFF := by decide

theorem witness_WdecResult :
    (0x1000 : BitVec Config.inW).setWidth 12 = (0x0000 : BitVec Config.inW).setWidth 12 := by decide

theorem witness_WordRoundTrips :
    (12 : Nat) ≤ 12 ∧ (12 : Nat) < 13 ∧ (0x0FFF : BitVec 13).toNat < 0x1000 ∧
    ¬ (0x1000 : BitVec 13).toNat < 0x1000 ∧ dec 0xFFF = dec 0xFFF := by decide

theorem witness_DecodeOfEncode : (Instr.pkWord 15 63 3).wellFormed = true := by decide

theorem witness_EncodeOfDecode :
    decode (.ports ⟨true, 0x3, 7, 63, 3, 0xFFFFFFFF, 0xFF⟩) = .ok (.acls 63) := by decide

theorem witness_CommandCodes :
    (command 0x0).cmd = 0x0 ∧ 0xB ≤ (command 0xB).cmd.toNat ∧ 0xB ≤ (command 0xF).cmd.toNat ∧
    (command 0x1).cmd = 0x1 ∧ (command 0x2).cmd = 0x2 ∧ (command 0x3).cmd = 0x3 ∧
    (command 0x4).cmd = 0x4 ∧ (command 0x5).cmd = 0x5 ∧ (command 0x6).cmd = 0x6 ∧
    (command 0x7).cmd = 0x7 ∧ (command 0x8).cmd = 0x8 ∧ (command 0x9).cmd = 0x9 ∧
    (command 0xA).cmd = 0xA := by decide

theorem witness_ReservedCommandRefused :
    (State.reset.issueNext (.ports (command 0x0))).input = .ports (command 0x0) :: [] ∧
    (command 0x0).rst = false ∧ State.reset.faults = [] ∧ (command 0x0).cmd = 0x0 ∧
    (State.reset.issueNext (.ports (command 0xB))).input = .ports (command 0xB) :: [] ∧
    (command 0xB).rst = false ∧ 0xB ≤ (command 0xB).cmd.toNat := by decide

theorem witness_PkWordResult :
    ((packing .zero 0 0 0).pkPhase = .active ∧ (packing .zero 0 0 0).pkOfs = .zero) ∧
    ((packing .four 0xC 1 1).pkPhase = .active ∧ (packing .four 0xC 1 1).pkOfs = .four) ∧
    State.reset.pkPhase ≠ .active := by decide

theorem witness_PkCommentResult :
    (packing .four 0xC 1 1).pkPhase = .active ∧ State.reset.pkPhase ≠ .active := by decide

theorem witness_PkFlushResult :
    ((packing .zero 0 2 3).pkPhase = .active ∧ (packing .zero 0 2 3).pkOfs = .zero) ∧
    ((packing .four 0xD 3 4).pkPhase = .active ∧ (packing .four 0xD 3 4).pkOfs = .four) ∧
    State.reset.pkPhase ≠ .active := by decide

theorem witness_PackerIsGeneralOffsetTracking : (packing .four 0xC 1 1).pkPhase = .active := by decide

theorem witness_HeldNibbleNeedsFlush :
    (packing .zero 0 0 0).pkPhase = .active ∧ (packing .zero 0 0 0).pkOfs = .zero ∧
    resetOverStart.rst = true := by decide

theorem witness_UpByteResult :
    ((unpacking .zero 0 0 0).upPhase = .active ∧ (unpacking .zero 0 0 0).upN = .zero) ∧
    ((unpacking .eight 0x4F 1 0).upPhase = .active ∧ (unpacking .eight 0x4F 1 0).upN = .eight) ∧
    ((unpacking .four 0x09 2 1).upPhase = .active ∧ (unpacking .four 0x09 2 1).upN = .four) ∧
    State.reset.upPhase ≠ .active ∧
    (unpacking .zero 0 0 0).UnpackerInv ∧ (unpacking .eight 0x4F 1 0).UnpackerInv ∧
    (unpacking .four 0x09 2 1).UnpackerInv := by
  refine ⟨by decide, by decide, by decide, by decide, ?_, ?_, ?_⟩ <;> exact ⟨by decide, by decide⟩

theorem witness_UpEndResult :
    (unpacking .four 0x0D 2 1).upPhase = .active ∧ State.reset.upPhase ≠ .active ∧
    (unpacking .zero 0 3 2).UnpackerInv ∧ (unpacking .eight 0xAB 1 0).UnpackerInv ∧
    (unpacking .four 0x0D 2 1).UnpackerInv := by
  refine ⟨by decide, by decide, ?_, ?_, ?_⟩ <;> exact ⟨by decide, by decide⟩

theorem witness_UnpackerIsGeneralOffsetTracking : (unpacking .eight 0x4F 1 0).upPhase = .active := by
  decide

theorem witness_WordPlacement :
    ([0x4FC, 0x9A0] : List Word)[1]? = some 0x9A0 ∧ (11 : Nat) < 12 := by decide

theorem witness_EndPadIsZero :
    12 * ([0xFFF] : List Word).length ≤ 12 ∧ 12 < 8 * (encodeWords [0xFFF]).length := by decide

theorem witness_DecodeStreamWords : 1 < 8 * ([0x4F, 0xC9, 0xA0] : List Byte).length / 12 ∧ (11 : Nat) < 12 := by
  decide

theorem witness_PackedLength :
    (wordsOfNodes [.word 4 63 0]).length % 2 = 1 ∧
    (wordsOfNodes [.word 4 63 0, .comment [], .word 9 56 3]).length % 2 = 0 := by decide

theorem witness_WordsEmittedEarliest :
    (decodeStream [0x4F, 0xC9, 0xA0])[1]? = some ⟨9, 40, 0, .parallelRead⟩ := by decide

theorem witness_ReverseRoundTrip :
    ([0x4F, 0xC9, 0xA0] : List Byte).length % 3 = 0 ∧ ([0xAB] : List Byte).length % 3 = 1 ∧
    ([0xAB, 0xCD] : List Byte) = [0xAB] ++ [0xCD] ∧ ([0xAB, 0xCD] : List Byte).length % 3 = 2 := by decide

theorem witness_StepRunsDecoded :
    ((packing .zero 0 0 0).issueNext (encode (.pkWord 4 63 0))).input = [encode (.pkWord 4 63 0)] ∧
    (encode (.pkWord 4 63 0)).rst = false ∧
    ((packing .zero 0 0 0).issueNext (encode (.pkWord 4 63 0))).faults = [] ∧
    decode (encode (.pkWord 4 63 0)) = .ok (.pkWord 4 63 0) := by decide

theorem witness_PlacedWordRuns :
    State.reset.faults = [] ∧ decodeTableWord 8 0x4 = some .pkStart := by decide

theorem witness_IdleWithoutRequest :
    (packing .four 0xC 1 1).input = [] ∧ (packing .four 0xC 1 1).faults = [] := by decide

theorem witness_ResetStep :
    ((packing .four 0xF 1 1).issueNext (.ports resetOverStart)).input = [.ports resetOverStart] ∧
    resetOverStart.rst = true := by decide

/-- An open stream with a nibble held meets the invariant, and its step on a PK_WORD answers a next state. -/
theorem witness_InvariantKept :
    ((packing .four 0xC 1 1).issueNext (encode (.pkWord 9 40 0))).Inv ∧
    ∃ t, step ((packing .four 0xC 1 1).issueNext (encode (.pkWord 9 40 0))) = .next t := by
  refine ⟨⟨⟨by decide, by decide⟩, ⟨by decide, by decide, by decide, by decide⟩, rfl⟩, _, rfl⟩

theorem witness_ReachableStatesGoOn : Reachable (State.reset.issue (encode .pkStart)) :=
  Reachable.issue _ Reachable.launch

/-- The three outcomes of R133: a reserved code, a stream command without a stream, a command that completes. -/
theorem witness_OutcomeOfCommand :
    ((State.reset.issueNext (.ports (command 0x0))).input = [.ports (command 0x0)] ∧
      (Request.ports (command 0x0)).rst = false ∧ State.reset.faults = [] ∧
      decode (.ports (command 0x0)) = .error (.reservedCommand 0x0)) ∧
    (decode (.ports (command 0x7)) = .ok .pkFlush ∧ State.reset.wrongPhase .pkFlush) ∧
    (decode (.ports (command 0x4)) = .ok .pkStart ∧ ¬ State.reset.wrongPhase .pkStart) := by
  simp only [State.wrongPhase]
  decide

theorem witness_RefusalChangesNothing :
    ∃ t, step ((packing .four 0xC 1 1).issueNext (encode .upEnd)) = .next t ∧
      t.result = .refused .noOpenStream := ⟨_, rfl, rfl⟩

/-- Both premises: a step from a state marked refused, and a step that sets the mark. -/
theorem witness_MarksOnlyGrow :
    (∃ t, step { State.reset with refused := true, input := [.ports resetOverStart] } = .next t ∧
      ({ State.reset with refused := true } : State).refused = true) ∧
    ∃ t, step (State.reset.issueNext (encode .upEnd)) = .next t ∧
      t.refused ≠ (State.reset.issueNext (encode .upEnd)).refused :=
  ⟨⟨_, rfl, rfl⟩, _, rfl, by decide⟩

theorem witness_FaultedBlockIsStuck :
    (encode .pkStart).rst = false ∧ (Request.ports resetOverStart).rst = true ∧
    (State.reset.recordFault .internalConsistency).input = [] := by decide

theorem witness_UnitFrames :
    isUnpackerCommand .pkStart = false ∧ isPackerCommand .upStart = false ∧
    isPackerCommand (.nopf 63 3) = false ∧ isUnpackerCommand (.nopf 63 3) = false := by decide

/-- Two states that agree on the packer and differ on the unpacker, and the other way round. -/
theorem witness_UnitReadsOnlyItself :
    (∃ t t', exec .pkFlush (packing .four 0xC 1 1) = .next t ∧
      exec .pkFlush { packing .four 0xC 1 1 with upPhase := .active } = .next t' ∧
      isPackerCommand .pkFlush = true ∧
      (packing .four 0xC 1 1).packerFields =
        ({ packing .four 0xC 1 1 with upPhase := .active } : State).packerFields) ∧
    (∃ t t', exec .upEnd (unpacking .four 0x0D 2 1) = .next t ∧
      exec .upEnd { unpacking .four 0x0D 2 1 with pkPhase := .active } = .next t' ∧
      isUnpackerCommand .upEnd = true ∧
      (unpacking .four 0x0D 2 1).unpackerFields =
        ({ unpacking .four 0x0D 2 1 with pkPhase := .active } : State).unpackerFields) ∧
    isPackerCommand (.wdec 0xABC) = false ∧ isUnpackerCommand (.wdec 0xABC) = false :=
  ⟨⟨_, _, rfl, rfl, rfl, rfl⟩, ⟨_, _, rfl, rfl, rfl, rfl⟩, rfl, rfl⟩

theorem witness_UnitsCommute :
    isPackerCommand (.pkWord 4 63 0) = true ∧ isUnpackerCommand (.upByte 0xFF) = true := by decide

/-- A step that opens a packing stream, and one that ends an unpacking stream. -/
theorem witness_PhaseChanges :
    (∃ t, step (State.reset.issueNext (encode .pkStart)) = .next t ∧
      t.pkPhase ≠ (State.reset.issueNext (encode .pkStart)).pkPhase) ∧
    ∃ t, step ((unpacking .four 0x0D 2 1).issueNext (encode .upEnd)) = .next t ∧
      t.upPhase ≠ ((unpacking .four 0x0D 2 1).issueNext (encode .upEnd)).upPhase :=
  ⟨⟨_, rfl, by decide⟩, _, rfl, by decide⟩

theorem witness_ResponseSizes :
    isPackerCommand (.upByte 0xFF) = false ∧ isUnpackerCommand (.pkWord 4 63 0) = false := by decide

theorem witness_NumeralBasesExclusive :
    (numeralOfBase false 'b' 2 ['0', 'b', '1']).isSome = true ∧
    (numeralOfBase false 'o' 8 ['0', 'o', '7']).isSome = true ∧
    (numeralOfBase true 'h' 16 ['0', 'H', 'F']).isSome = true := by decide

/-- The spec's labels, a field in mixed case for each attested mnemonic, and another table the source allows, in
which the labels of codes 1 and 8 change places. -/
theorem witness_MnemonicFullLiteralAnyCase :
    someParams.mnemonics.labels = specLabels ∧
    ['O', 'n', 'e'].map Char.toLower = ['o', 'n', 'e'] ∧
    ['N', 'O', 'p', '0'].map Char.toLower = ['n', 'o', 'p', '0'] ∧
    ['S', 't', 'o', 'C'].map Char.toLower = ['s', 't', 'o', 'c'] ∧
    ['s', 'T', 'o'].map Char.toLower = ['s', 't', 'o'] ∧
    ({ specLabels with code1 := ['s', 't', 'o'], code8 := ['l', 'd'] } : MnemonicLabels).wellFormed = true := by
  decide

/-- The table's check refuses a second `one`, an upper-case name, a name with a space, and a table without `sto`. -/
theorem test_mnemonic_table_refuses :
    ({ specLabels with code1 := ['o', 'n', 'e'] } : MnemonicLabels).wellFormed = false ∧
    ({ specLabels with code1 := ['L', 'D'] } : MnemonicLabels).wellFormed = false ∧
    ({ specLabels with code1 := ['l', ' ', 'd'] } : MnemonicLabels).wellFormed = false ∧
    ({ specLabels with code8 := ['s', 't'] } : MnemonicLabels).wellFormed = false := by decide

end Sys2Proof.Tests
end

section
/-! SUPPORT. A step that runs an instruction: the request it takes decodes, RESET is not asserted and no fault is
recorded (00_scope.md R11). -/

namespace Sys2Proof.Machine

open Sys2Proof Host

/-! ## The conditions under which a request runs -/

@[simp] theorem State.stuck_eq_false_iff (s : State) : s.stuck = false ↔ s.faults = [] := by
  simp [State.stuck]

/-- A table word never asserts RESET: its ports hold `rst` low, and a word request has no `rst`. -/
@[simp] theorem tableRequest_rst (nbits w : Nat) : (tableRequest nbits w).rst = false := by
  unfold tableRequest
  dsimp only
  split <;> rfl

theorem decodeTableWord_eq_some_iff {nbits w : Nat} {i : Instr} :
    decodeTableWord nbits w = some i ↔ decode (tableRequest nbits w) = .ok i := by
  unfold decodeTableWord
  cases decode (tableRequest nbits w) <;> simp

/-! ## The step -/

/-- The arm of `step` that runs an instruction: the converse of the third case of `step_cases`. -/
theorem step_of_decoded {s : State} {q : Request} {rest : List Request} {i : Instr}
    (hin : s.input = q :: rest) (hrst : q.rst = false) (hfaults : s.faults = [])
    (hdec : decode q = .ok i) : step s = exec i { s with input := rest } := by
  have hstuck : s.stuck = false := s.stuck_eq_false_iff.mpr hfaults
  simp [step, fetch_of_issued hin, hrst, hstuck, hdec]

/-- A request issued ahead of the rest runs on the state as it was before the issue: taking the request off the
list restores the list. -/
theorem step_issueNext_of_decoded {s : State} {q : Request} {i : Instr}
    (hrst : q.rst = false) (hfaults : s.faults = []) (hdec : decode q = .ok i) :
    step (s.issueNext q) = exec i s :=
  step_of_decoded (s.issueNext_input q) hrst hfaults hdec

/-! ## The obligations -/

/-- Settles O39. -/
theorem stepRunsDecoded : Obligations.StepRunsDecoded :=
  fun _ _ _ _ hin hrst hfaults hdec => step_of_decoded hin hrst hfaults hdec

/-- Settles O40: the placed table word is a request issued ahead of the rest, and it decodes without RESET. -/
theorem placedWordRuns : Obligations.PlacedWordRuns := by
  intro s nbits w i hfaults hword
  have hdec : decode (tableRequest nbits w) = .ok i := decodeTableWord_eq_some_iff.mp hword
  exact step_issueNext_of_decoded (tableRequest_rst nbits w) hfaults hdec

end Sys2Proof.Machine
end

section
/-! SUPPORT. The two stream units as parts of the state (10_state.md R30): which operation leaves a unit's fields alone,
and what a command of a unit can do to it. -/

namespace Sys2Proof.Machine

open Sys2Proof Host

/-! ## A unit's fields under the shared operations -/

@[simp] theorem State.complete_packerFields (r : Response) (s : State) :
    (s.complete r).packerFields = s.packerFields := rfl
@[simp] theorem State.complete_unpackerFields (r : Response) (s : State) :
    (s.complete r).unpackerFields = s.unpackerFields := rfl
@[simp] theorem State.refuse_packerFields (w : RefuseReason) (s : State) :
    (s.refuse w).packerFields = s.packerFields := rfl
@[simp] theorem State.refuse_unpackerFields (w : RefuseReason) (s : State) :
    (s.refuse w).unpackerFields = s.unpackerFields := rfl
@[simp] theorem State.openPacker_unpackerFields (s : State) :
    s.openPacker.unpackerFields = s.unpackerFields := rfl
@[simp] theorem State.openUnpacker_packerFields (s : State) :
    s.openUnpacker.packerFields = s.packerFields := rfl
@[simp] theorem State.packWord_unpackerFields (v : Word) (s : State) :
    (s.packWord v).unpackerFields = s.unpackerFields := by simp [State.unpackerFields]
@[simp] theorem State.flushPacker_unpackerFields (s : State) :
    s.flushPacker.unpackerFields = s.unpackerFields := by simp [State.unpackerFields]
@[simp] theorem State.unpackByte_packerFields (b : Byte) (s : State) :
    (s.unpackByte b).packerFields = s.packerFields := by simp [State.packerFields]
@[simp] theorem State.endUnpacker_packerFields (s : State) :
    s.endUnpacker.packerFields = s.packerFields := rfl

theorem packerFields_eq_iff {s t : State} :
    s.packerFields = t.packerFields ↔
      s.pkPhase = t.pkPhase ∧ s.pkOfs = t.pkOfs ∧ s.pkHold = t.pkHold ∧ s.pkCnt = t.pkCnt ∧
        s.pkNbytes = t.pkNbytes := by
  simp [State.packerFields]

theorem unpackerFields_eq_iff {s t : State} :
    s.unpackerFields = t.unpackerFields ↔
      s.upPhase = t.upPhase ∧ s.upN = t.upN ∧ s.upAcc = t.upAcc ∧ s.upNbytes = t.upNbytes ∧
        s.upCnt = t.upCnt := by
  simp [State.unpackerFields]

/-! ## What each unit delivers -/

@[simp] theorem packWord_wordsOut (v : Word) (s : State) : (s.packWord v).result.wordsOut = [] := by
  unfold State.packWord; split <;> rfl

@[simp] theorem flushPacker_wordsOut (s : State) : s.flushPacker.result.wordsOut = [] := by
  unfold State.flushPacker; split <;> rfl

@[simp] theorem unpackByte_bytesOut (b : Byte) (s : State) : (s.unpackByte b).result.bytesOut = [] := by
  unfold State.unpackByte; split <;> rfl

@[simp] theorem completed_none_bytesOut : (CommandResult.completed .none).bytesOut = [] := rfl

@[simp] theorem completed_none_wordsOut : (CommandResult.completed .none).wordsOut = [] := rfl

@[simp] theorem refused_bytesOut (w : RefuseReason) : (CommandResult.refused w).bytesOut = [] := rfl

@[simp] theorem refused_wordsOut (w : RefuseReason) : (CommandResult.refused w).wordsOut = [] := rfl

/-! ## The moves of a unit

Every packer command is one of these moves, and every unpacker command one of those below; `exec_inversion` ties
them to `exec`. -/

/-- The state that a packer command answers from `s`. -/
inductive PackerMove (s : State) : Instr → State → Prop
  | start : PackerMove s .pkStart (s.openPacker.complete .none)
  | word (c : InstCode) (a : Addr) (k : CtrlCode) (hactive : s.pkPhase = .active) :
      PackerMove s (.pkWord c a k) (s.packWord (enc c a k))
  | comment (hactive : s.pkPhase = .active) : PackerMove s .pkComment (s.complete .none)
  | flush (hactive : s.pkPhase = .active) : PackerMove s .pkFlush s.flushPacker
  | refuse {i : Instr} (hneeds : needsPacking i = true) (hclosed : s.pkPhase ≠ .active) :
      PackerMove s i (s.refuse .noOpenStream)

/-- The state that an unpacker command answers from `s`. -/
inductive UnpackerMove (s : State) : Instr → State → Prop
  | start : UnpackerMove s .upStart (s.openUnpacker.complete .none)
  | byte (b : Byte) (hactive : s.upPhase = .active) : UnpackerMove s (.upByte b) (s.unpackByte b)
  | stop (hactive : s.upPhase = .active) : UnpackerMove s .upEnd s.endUnpacker
  | refuse {i : Instr} (hneeds : needsUnpacking i = true) (hclosed : s.upPhase ≠ .active) :
      UnpackerMove s i (s.refuse .noOpenStream)

theorem isPackerCommand_of_needsPacking {i : Instr} (h : needsPacking i = true) :
    isPackerCommand i = true := by
  cases i
  case pkWord | pkComment | pkFlush => rfl
  all_goals cases h

theorem isUnpackerCommand_of_needsUnpacking {i : Instr} (h : needsUnpacking i = true) :
    isUnpackerCommand i = true := by
  cases i
  case upByte | upEnd => rfl
  all_goals cases h

/-- A guarded command makes its body's move while a stream is open, and is refused otherwise. -/
theorem PackerMove.of_requirePacking {i : Instr} {s t : State} {body : State → State}
    (hneeds : needsPacking i = true) (hbody : s.pkPhase = .active → PackerMove s i (body s))
    (h : requirePacking s body = .next t) : PackerMove s i t := by
  rcases requirePacking_cases h with ⟨hactive, rfl⟩ | ⟨hclosed, rfl⟩
  · exact hbody hactive
  · exact .refuse hneeds hclosed

/-- A guarded command makes its body's move while a stream is open, and is refused otherwise. -/
theorem UnpackerMove.of_requireUnpacking {i : Instr} {s t : State} {body : State → State}
    (hneeds : needsUnpacking i = true) (hbody : s.upPhase = .active → UnpackerMove s i (body s))
    (h : requireUnpacking s body = .next t) : UnpackerMove s i t := by
  rcases requireUnpacking_cases h with ⟨hactive, rfl⟩ | ⟨hclosed, rfl⟩
  · exact hbody hactive
  · exact .refuse hneeds hclosed

/-- What an instruction can do: complete with a response that is no stream output and touch nothing, or make a
move of one unit. -/
theorem exec_inversion {i : Instr} {s t : State} (h : exec i s = .next t) :
    (∃ r, t = s.complete r ∧ (CommandResult.completed r).bytesOut = [] ∧
      (CommandResult.completed r).wordsOut = []) ∨
    PackerMove s i t ∨ UnpackerMove s i t := by
  rcases exec_cases i with ⟨r, hexec, -, -, -, -, hbytes, hwords⟩ | rfl | ⟨c, a, k, rfl⟩ | rfl | rfl | rfl |
    ⟨b, rfl⟩ | rfl
  · rw [hexec] at h
    exact .inl ⟨r, (Outcome.next.inj h).symm, hbytes, hwords⟩
  · rw [exec_pkStart] at h
    exact .inr (.inl (Outcome.next.inj h ▸ .start))
  · exact .inr (.inl (.of_requirePacking rfl (.word c a k) h))
  · exact .inr (.inl (.of_requirePacking rfl .comment h))
  · exact .inr (.inl (.of_requirePacking rfl .flush h))
  · rw [exec_upStart] at h
    exact .inr (.inr (Outcome.next.inj h ▸ .start))
  · exact .inr (.inr (.of_requireUnpacking rfl (.byte b) h))
  · exact .inr (.inr (.of_requireUnpacking rfl .stop h))

/-! ## What a packer move does outside its unit -/

namespace PackerMove

variable {s t : State} {i : Instr}

theorem isPackerCommand_eq (h : PackerMove s i t) : isPackerCommand i = true := by
  cases h with
  | refuse hneeds => exact isPackerCommand_of_needsPacking hneeds
  | _ => rfl

theorem unpackerFields_eq (h : PackerMove s i t) : t.unpackerFields = s.unpackerFields := by
  cases h <;> simp

theorem faults_eq (h : PackerMove s i t) : t.faults = s.faults := by
  cases h <;> simp

theorem input_eq (h : PackerMove s i t) : t.input = s.input := by
  cases h <;> simp

theorem wordsOut_eq_nil (h : PackerMove s i t) : t.result.wordsOut = [] := by
  cases h <;> simp

/-- The mark moves only with a refused result (10_state.md R31). -/
theorem refused_cases (h : PackerMove s i t) :
    t.refused = s.refused ∨ (t.refused = true ∧ ∃ why, t.result = .refused why) := by
  cases h with
  | refuse => exact .inr ⟨rfl, _, rfl⟩
  | _ => exact .inl (by simp)

end PackerMove

/-! ## What an unpacker move does outside its unit -/

namespace UnpackerMove

variable {s t : State} {i : Instr}

theorem isUnpackerCommand_eq (h : UnpackerMove s i t) : isUnpackerCommand i = true := by
  cases h with
  | refuse hneeds => exact isUnpackerCommand_of_needsUnpacking hneeds
  | _ => rfl

theorem packerFields_eq (h : UnpackerMove s i t) : t.packerFields = s.packerFields := by
  cases h <;> simp

theorem faults_eq (h : UnpackerMove s i t) : t.faults = s.faults := by
  cases h <;> simp

theorem input_eq (h : UnpackerMove s i t) : t.input = s.input := by
  cases h <;> simp

theorem bytesOut_eq_nil (h : UnpackerMove s i t) : t.result.bytesOut = [] := by
  cases h <;> simp

/-- The mark moves only with a refused result (10_state.md R31). -/
theorem refused_cases (h : UnpackerMove s i t) :
    t.refused = s.refused ∨ (t.refused = true ∧ ∃ why, t.result = .refused why) := by
  cases h with
  | refuse => exact .inr ⟨rfl, _, rfl⟩
  | _ => exact .inl (by simp)

end UnpackerMove

/-! ## The frame of an instruction -/

theorem requirePacking_next (s : State) (body : State → State) : ∃ t, requirePacking s body = .next t := by
  by_cases h : s.pkPhase = .active
  · exact ⟨_, requirePacking_active h body⟩
  · exact ⟨_, requirePacking_closed h body⟩

theorem requireUnpacking_next (s : State) (body : State → State) :
    ∃ t, requireUnpacking s body = .next t := by
  by_cases h : s.upPhase = .active
  · exact ⟨_, requireUnpacking_active h body⟩
  · exact ⟨_, requireUnpacking_closed h body⟩

/-- No instruction stops a run. -/
theorem exec_next (i : Instr) (s : State) : ∃ t, exec i s = .next t := by
  rcases exec_cases i with ⟨r, hexec, -⟩ | rfl | ⟨c, a, k, rfl⟩ | rfl | rfl | rfl | ⟨b, rfl⟩ | rfl
  · exact ⟨_, hexec s⟩
  · exact ⟨_, exec_pkStart s⟩
  · exact requirePacking_next s _
  · exact requirePacking_next s _
  · exact requirePacking_next s _
  · exact ⟨_, exec_upStart s⟩
  · exact requireUnpacking_next s _
  · exact requireUnpacking_next s _

section Frame

variable {i : Instr} {s t : State}

/-- An instruction that is no packer command leaves the packer alone and puts nothing on `out_bytes`. -/
theorem exec_frame_packer (hi : isPackerCommand i = false) (h : exec i s = .next t) :
    t.packerFields = s.packerFields ∧ t.result.bytesOut = [] := by
  rcases exec_inversion h with ⟨r, rfl, hbytes, -⟩ | hmove | hmove
  · exact ⟨rfl, hbytes⟩
  · simp [hmove.isPackerCommand_eq] at hi
  · exact ⟨hmove.packerFields_eq, hmove.bytesOut_eq_nil⟩

/-- An instruction that is no unpacker command leaves the unpacker alone and puts nothing on `out_words`. -/
theorem exec_frame_unpacker (hi : isUnpackerCommand i = false) (h : exec i s = .next t) :
    t.unpackerFields = s.unpackerFields ∧ t.result.wordsOut = [] := by
  rcases exec_inversion h with ⟨r, rfl, -, hwords⟩ | hmove | hmove
  · exact ⟨rfl, hwords⟩
  · exact ⟨hmove.unpackerFields_eq, hmove.wordsOut_eq_nil⟩
  · simp [hmove.isUnpackerCommand_eq] at hi

theorem exec_faults (h : exec i s = .next t) : t.faults = s.faults := by
  rcases exec_inversion h with ⟨r, rfl, -⟩ | hmove | hmove
  · rfl
  · exact hmove.faults_eq
  · exact hmove.faults_eq

theorem exec_input (h : exec i s = .next t) : t.input = s.input := by
  rcases exec_inversion h with ⟨r, rfl, -⟩ | hmove | hmove
  · rfl
  · exact hmove.input_eq
  · exact hmove.input_eq

theorem exec_refused_cases (h : exec i s = .next t) :
    t.refused = s.refused ∨ (t.refused = true ∧ ∃ why, t.result = .refused why) := by
  rcases exec_inversion h with ⟨r, rfl, -⟩ | hmove | hmove
  · exact .inl rfl
  · exact hmove.refused_cases
  · exact hmove.refused_cases

theorem exec_refused_of_no_unit (hp : isPackerCommand i = false) (hu : isUnpackerCommand i = false)
    (h : exec i s = .next t) : t.refused = s.refused := by
  rcases exec_inversion h with ⟨r, rfl, -⟩ | hmove | hmove
  · rfl
  · simp [hmove.isPackerCommand_eq] at hp
  · simp [hmove.isUnpackerCommand_eq] at hu

end Frame

/-- Settles O51. -/
theorem unitFrames : Obligations.UnitFrames := by
  intro i s
  obtain ⟨t, h⟩ := exec_next i s
  exact ⟨t, h, fun hu => (exec_frame_unpacker hu h).1, fun hp => (exec_frame_packer hp h).1,
    fun hp hu => exec_refused_of_no_unit hp hu h, exec_faults h, exec_input h⟩

end Sys2Proof.Machine
end

section
/-! SUPPORT. The units' invariants (10_state.md R19, R22, R25, R28) phase by phase, and that every move of a unit, and so
every step, keeps them. -/

namespace Sys2Proof.Machine

open Sys2Proof Host

/-! ## The invariants in each phase -/

theorem packerInv_of_idle {s : State} (h : s.pkPhase = .idle) :
    s.PackerInv ↔ s.pkOfs = .zero ∧ s.pkHold = 0#4 ∧ s.pkCnt = 0 ∧ s.pkNbytes = 0 := by
  simp [State.PackerInv, h]

theorem packerInv_of_active {s : State} (h : s.pkPhase = .active) :
    s.PackerInv ↔
      8 * s.pkNbytes + s.pkOfs.bits = 12 * s.pkCnt ∧ (s.pkOfs = .zero → s.pkHold = 0#4) := by
  simp [State.PackerInv, h]

theorem packerInv_of_done {s : State} (h : s.pkPhase = .done) :
    s.PackerInv ↔ s.pkOfs = .zero ∧ s.pkHold = 0#4 ∧ s.pkNbytes = (12 * s.pkCnt + 7) / 8 := by
  simp [State.PackerInv, h]

theorem unpackerInv_of_idle {s : State} (h : s.upPhase = .idle) :
    s.UnpackerInv ↔ s.upN = .zero ∧ s.upAcc = 0#8 ∧ s.upNbytes = 0 ∧ s.upCnt = 0 := by
  simp [State.UnpackerInv, h]

theorem unpackerInv_of_active {s : State} (h : s.upPhase = .active) :
    s.UnpackerInv ↔
      8 * s.upNbytes = 12 * s.upCnt + s.upN.bits ∧ s.upAcc.toNat < 2 ^ s.upN.bits := by
  simp [State.UnpackerInv, h]

theorem unpackerInv_of_done {s : State} (h : s.upPhase = .done) :
    s.UnpackerInv ↔ s.upN = .zero ∧ s.upAcc = 0#8 ∧ s.upCnt = 8 * s.upNbytes / 12 := by
  simp [State.UnpackerInv, h]

/-- The packer's invariant speaks of the packer's fields only. -/
theorem packerInv_congr {s t : State} (h : t.packerFields = s.packerFields) :
    t.PackerInv ↔ s.PackerInv := by
  obtain ⟨hphase, hofs, hhold, hcnt, hnbytes⟩ := packerFields_eq_iff.mp h
  simp only [State.PackerInv, hphase, hofs, hhold, hcnt, hnbytes]

/-- The unpacker's invariant speaks of the unpacker's fields only. -/
theorem unpackerInv_congr {s t : State} (h : t.unpackerFields = s.unpackerFields) :
    t.UnpackerInv ↔ s.UnpackerInv := by
  obtain ⟨hphase, hn, hacc, hnbytes, hcnt⟩ := unpackerFields_eq_iff.mp h
  simp only [State.UnpackerInv, hphase, hn, hacc, hnbytes, hcnt]

theorem packerInv_applyReset (s : State) : s.applyReset.PackerInv :=
  (packerInv_of_idle rfl).mpr ⟨rfl, rfl, rfl, rfl⟩

theorem unpackerInv_applyReset (s : State) : s.applyReset.UnpackerInv :=
  (unpackerInv_of_idle rfl).mpr ⟨rfl, rfl, rfl, rfl⟩

/-! ## The packer's moves keep the packer's invariant -/

theorem packerInv_openPacker (s : State) : s.openPacker.PackerInv :=
  (packerInv_of_active rfl).mpr ⟨rfl, fun _ => rfl⟩

/-- 12 bits in, 8 bits out with 4 held, or 16 bits out with none held. -/
theorem packerInv_packWord {s : State} (hactive : s.pkPhase = .active) (hinv : s.PackerInv) (v : Word) :
    (s.packWord v).PackerInv := by
  obtain ⟨hbits, -⟩ := (packerInv_of_active hactive).mp hinv
  rw [packerInv_of_active ((s.packWord_pkPhase v).trans hactive)]
  cases hofs : s.pkOfs with
  | zero =>
    rw [packWord_at_zero hofs]
    simp only [hofs, PkOfs.bits] at hbits ⊢
    exact ⟨by omega, nofun⟩
  | four =>
    rw [packWord_at_four hofs]
    simp only [hofs, PkOfs.bits] at hbits ⊢
    exact ⟨by omega, fun _ => trivial⟩

/-- The pad turns a held nibble into one byte more, the byte count rounded up (41_stream_packer.md R110). -/
theorem packerInv_flushPacker {s : State} (hactive : s.pkPhase = .active) (hinv : s.PackerInv) :
    s.flushPacker.PackerInv := by
  obtain ⟨hbits, -⟩ := (packerInv_of_active hactive).mp hinv
  rw [packerInv_of_done s.flushPacker_pkPhase]
  refine ⟨s.flushPacker_pkOfs, s.flushPacker_pkHold, ?_⟩
  cases hofs : s.pkOfs with
  | zero =>
    rw [flushPacker_at_zero hofs]
    simp only [hofs, PkOfs.bits] at hbits ⊢
    omega
  | four =>
    rw [flushPacker_at_four hofs]
    simp only [hofs, PkOfs.bits] at hbits ⊢
    omega

theorem PackerMove.keeps_packerInv {s t : State} {i : Instr} (h : PackerMove s i t)
    (hinv : s.PackerInv) : t.PackerInv := by
  cases h with
  | start => exact (packerInv_congr (State.complete_packerFields _ _)).mpr (packerInv_openPacker s)
  | word c a k hactive => exact packerInv_packWord hactive hinv _
  | comment => exact (packerInv_congr (State.complete_packerFields _ _)).mpr hinv
  | flush hactive => exact packerInv_flushPacker hactive hinv
  | refuse => exact (packerInv_congr (State.refuse_packerFields _ _)).mpr hinv

/-! ## The unpacker's moves keep the unpacker's invariant -/

theorem unpackerInv_openUnpacker (s : State) : s.openUnpacker.UnpackerInv :=
  (unpackerInv_of_active rfl).mpr ⟨rfl, Nat.one_pos⟩

/-- 8 bits in, and 12 bits out when as many are held; the rest fits the new width. -/
theorem unpackerInv_unpackByte {s : State} (hactive : s.upPhase = .active) (hinv : s.UnpackerInv)
    (b : Byte) : (s.unpackByte b).UnpackerInv := by
  obtain ⟨hbits, -⟩ := (unpackerInv_of_active hactive).mp hinv
  rw [unpackerInv_of_active ((s.unpackByte_upPhase b).trans hactive)]
  cases hn : s.upN with
  | zero =>
    rw [unpackByte_at_zero hn]
    simp only [hn, UpN.bits] at hbits ⊢
    exact ⟨by omega, b.isLt⟩
  | eight =>
    rw [unpackByte_at_eight hn]
    simp only [hn, UpN.bits] at hbits ⊢
    exact ⟨by omega, by rw [BitVec.toNat_setWidth_of_le (by decide)]; exact BitVec.isLt _⟩
  | four =>
    rw [unpackByte_at_four hn]
    simp only [hn, UpN.bits] at hbits ⊢
    exact ⟨by omega, by decide⟩

/-- Fewer than 12 bits are held, so the words delivered are all that the bytes hold (42_stream_unpacker.md R123). -/
theorem unpackerInv_endUnpacker {s : State} (hactive : s.upPhase = .active) (hinv : s.UnpackerInv) :
    s.endUnpacker.UnpackerInv := by
  obtain ⟨hbits, -⟩ := (unpackerInv_of_active hactive).mp hinv
  rw [unpackerInv_of_done s.endUnpacker_upPhase]
  refine ⟨rfl, rfl, ?_⟩
  have hheld : s.upN.bits < 12 := by cases s.upN <;> decide
  simp only [State.endUnpacker_upCnt, State.endUnpacker_upNbytes]
  omega

theorem UnpackerMove.keeps_unpackerInv {s t : State} {i : Instr} (h : UnpackerMove s i t)
    (hinv : s.UnpackerInv) : t.UnpackerInv := by
  cases h with
  | start => exact (unpackerInv_congr (State.complete_unpackerFields _ _)).mpr (unpackerInv_openUnpacker s)
  | byte b hactive => exact unpackerInv_unpackByte hactive hinv b
  | stop hactive => exact unpackerInv_endUnpacker hactive hinv
  | refuse => exact (unpackerInv_congr (State.refuse_unpackerFields _ _)).mpr hinv

/-! ## Every step keeps them -/

/-- An instruction keeps both units' invariants: its own unit's by the move, the other's by the frame. -/
theorem exec_keeps_unitInvs {i : Instr} {s t : State} (h : exec i s = .next t)
    (hpk : s.PackerInv) (hup : s.UnpackerInv) : t.PackerInv ∧ t.UnpackerInv := by
  rcases exec_inversion h with ⟨r, rfl, -⟩ | hmove | hmove
  · exact ⟨(packerInv_congr rfl).mpr hpk, (unpackerInv_congr rfl).mpr hup⟩
  · exact ⟨hmove.keeps_packerInv hpk, (unpackerInv_congr hmove.unpackerFields_eq).mpr hup⟩
  · exact ⟨(packerInv_congr hmove.packerFields_eq).mpr hpk, hmove.keeps_unpackerInv hup⟩

theorem step_keeps_unitInvs {s t : State} (h : step s = .next t)
    (hpk : s.PackerInv) (hup : s.UnpackerInv) : t.PackerInv ∧ t.UnpackerInv := by
  rcases step_cases h with ⟨-, -, rfl⟩ | ⟨q, rest, -, ⟨-, rfl⟩ | ⟨-, -, i, -, hexec⟩ | ⟨-, -, -, rfl⟩⟩
  · exact ⟨(packerInv_congr rfl).mpr hpk, (unpackerInv_congr rfl).mpr hup⟩
  · exact ⟨packerInv_applyReset _, unpackerInv_applyReset _⟩
  · exact exec_keeps_unitInvs hexec ((packerInv_congr rfl).mpr hpk) ((unpackerInv_congr rfl).mpr hup)
  · exact ⟨(packerInv_congr rfl).mpr hpk, (unpackerInv_congr rfl).mpr hup⟩

theorem step_faults {s t : State} (h : step s = .next t) : t.faults = s.faults := by
  rcases step_cases h with ⟨-, -, rfl⟩ | ⟨q, rest, -, ⟨-, rfl⟩ | ⟨-, -, i, -, hexec⟩ | ⟨-, -, -, rfl⟩⟩
  · rfl
  · rfl
  · simpa using exec_faults hexec
  · rfl

/-- Settles O44. -/
theorem invariantKept : Obligations.InvariantKept := by
  intro s t ⟨hpk, hup, hnofault⟩ h
  obtain ⟨hpk', hup'⟩ := step_keeps_unitInvs h hpk hup
  exact ⟨hpk', hup', (step_faults h).trans hnofault⟩

/-- Settles O45: both units are idle with every field at its reset value. -/
theorem invariantAtLaunch : Obligations.InvariantAtLaunch :=
  ⟨packerInv_applyReset State.reset, unpackerInv_applyReset State.reset, rfl⟩

end Sys2Proof.Machine
end

section
/-! SUPPORT. The marks and the phases over a step (10_state.md R17, R23, R31), and the state in which R22's first clause
fails. -/

namespace Sys2Proof.Machine

open Sys2Proof Host

/-! ## The marks -/

theorem step_refused_cases {s t : State} (h : step s = .next t) :
    t.refused = s.refused ∨ (t.refused = true ∧ ∃ why, t.result = .refused why) := by
  rcases step_cases h with ⟨-, -, rfl⟩ | ⟨q, rest, -, ⟨-, rfl⟩ | ⟨-, -, i, -, hexec⟩ | ⟨-, -, -, rfl⟩⟩
  · exact .inl rfl
  · exact .inl rfl
  · simpa using exec_refused_cases hexec
  · exact .inr ⟨rfl, _, rfl⟩

/-- Settles O49. -/
theorem marksOnlyGrow : Obligations.MarksOnlyGrow := by
  refine ⟨rfl, fun s t h => ⟨fun hset => ?_, fun hne => ?_, step_faults h⟩⟩
  · rcases step_refused_cases h with heq | ⟨hset', -⟩
    · exact heq.trans hset
    · exact hset'
  · rcases step_refused_cases h with heq | ⟨-, hwhy⟩
    · exact absurd heq hne
    · exact hwhy

/-! ## The phases -/

theorem PackerMove.phase_cases {s t : State} {i : Instr} (h : PackerMove s i t) :
    t.pkPhase = s.pkPhase ∨ (i = .pkStart ∧ t.pkPhase = .active) ∨
      (i = .pkFlush ∧ s.pkPhase = .active ∧ t.pkPhase = .done) := by
  cases h with
  | start => exact .inr (.inl ⟨rfl, rfl⟩)
  | flush hactive => exact .inr (.inr ⟨rfl, hactive, s.flushPacker_pkPhase⟩)
  | _ => exact .inl (by simp)

theorem UnpackerMove.phase_cases {s t : State} {i : Instr} (h : UnpackerMove s i t) :
    t.upPhase = s.upPhase ∨ (i = .upStart ∧ t.upPhase = .active) ∨
      (i = .upEnd ∧ s.upPhase = .active ∧ t.upPhase = .done) := by
  cases h with
  | start => exact .inr (.inl ⟨rfl, rfl⟩)
  | stop hactive => exact .inr (.inr ⟨rfl, hactive, rfl⟩)
  | _ => exact .inl (by simp)

theorem exec_pkPhase_cases {s t : State} {i : Instr} (h : exec i s = .next t) :
    t.pkPhase = s.pkPhase ∨ (i = .pkStart ∧ t.pkPhase = .active) ∨
      (i = .pkFlush ∧ s.pkPhase = .active ∧ t.pkPhase = .done) := by
  rcases exec_inversion h with ⟨r, rfl, -⟩ | hmove | hmove
  · exact .inl rfl
  · exact hmove.phase_cases
  · exact .inl (packerFields_eq_iff.mp hmove.packerFields_eq).1

theorem exec_upPhase_cases {s t : State} {i : Instr} (h : exec i s = .next t) :
    t.upPhase = s.upPhase ∨ (i = .upStart ∧ t.upPhase = .active) ∨
      (i = .upEnd ∧ s.upPhase = .active ∧ t.upPhase = .done) := by
  rcases exec_inversion h with ⟨r, rfl, -⟩ | hmove | hmove
  · exact .inl rfl
  · exact .inl (unpackerFields_eq_iff.mp hmove.unpackerFields_eq).1
  · exact hmove.phase_cases

/-- Settles O56: an idle step and a reserved code change no phase; RESET and the units' own commands do. -/
theorem phaseChanges : Obligations.PhaseChanges := by
  intro s t h
  rcases step_cases h with ⟨-, -, rfl⟩ | ⟨q, rest, hin, ⟨hrst, rfl⟩ | ⟨hrst, -, i, hdec, hexec⟩ | ⟨-, -, -, rfl⟩⟩
  · exact ⟨fun hne => absurd rfl hne, fun hne => absurd rfl hne⟩
  · exact ⟨fun _ => ⟨q, rest, hin, .inl ⟨hrst, rfl⟩⟩, fun _ => ⟨q, rest, hin, .inl ⟨hrst, rfl⟩⟩⟩
  · refine ⟨fun hne => ⟨q, rest, hin, .inr ?_⟩, fun hne => ⟨q, rest, hin, .inr ?_⟩⟩
    · rcases exec_pkPhase_cases hexec with hsame | ⟨rfl, hphase⟩ | ⟨rfl, hactive, hphase⟩
      · exact absurd hsame hne
      · exact .inl ⟨hrst, hdec, hphase⟩
      · exact .inr ⟨hrst, hdec, hactive, hphase⟩
    · rcases exec_upPhase_cases hexec with hsame | ⟨rfl, hphase⟩ | ⟨rfl, hactive, hphase⟩
      · exact absurd hsame hne
      · exact .inl ⟨hrst, hdec, hphase⟩
      · exact .inr ⟨hrst, hdec, hactive, hphase⟩
  · exact ⟨fun hne => absurd rfl hne, fun hne => absurd rfl hne⟩

/-! ## A stream of one word, flushed -/

/-- A decoded request issued with nothing else outstanding is performed by the next step. -/
theorem Reachable.perform {s t : State} (hs : Reachable s) {q : Request} {i : Instr} (hin : s.input = [])
    (hrst : q.rst = false) (hfaults : s.faults = []) (hdec : decode q = .ok i)
    (hexec : exec i s = .next t) : Reachable t := by
  have hissue : s.issue q = s.issueNext q := by simp [State.issue, State.issueNext, hin]
  refine (hs.issue q).step (t := t) ?_
  rw [hissue, step_issueNext_of_decoded hrst hfaults hdec, hexec]

/-- The block after PK_START, PK_WORD of `one 0o77 0` (0x4FC) and PK_FLUSH from launch: the held nibble went out
with its pad, and the count stays odd. -/
def oneWordFlushed : State :=
  { State.reset with
    pkPhase := .done, pkCnt := 1, pkNbytes := 2, result := .completed (.bytes [0xC0#8]) }

theorem oneWordFlushed_reachable : Reachable oneWordFlushed :=
  have hstart := Reachable.launch.perform (q := encode .pkStart) rfl rfl rfl rfl (exec_pkStart _)
  have hword := hstart.perform (q := encode (.pkWord 4 0o77 0)) rfl rfl rfl rfl rfl
  hword.perform (q := encode .pkFlush) rfl rfl rfl rfl rfl

/-- Settles O58, by the stream of one word: `pk_ofs` is 0 and `(12 * 1) mod 8` is 4. -/
theorem offsetClauseFailsAfterFlush : Obligations.OffsetClauseFailsAfterFlush :=
  ⟨oneWordFlushed, oneWordFlushed_reachable, rfl, by decide⟩

end Sys2Proof.Machine
end

section
/-! SUPPORT. What a unit's command reads (10_state.md R30), and that a stream after its START does not depend on what came
before it (R32). -/

namespace Sys2Proof.Machine

open Sys2Proof Host

/-! ## Two states that agree on the packer -/

section Packer

variable {s s' t t' : State}

theorem packWord_agree (hs : s.packerFields = s'.packerFields) (v : Word) :
    (s.packWord v).packerFields = (s'.packWord v).packerFields ∧
      (s.packWord v).result = (s'.packWord v).result := by
  obtain ⟨hphase, hofs, hhold, hcnt, hnbytes⟩ := packerFields_eq_iff.mp hs
  cases h : s'.pkOfs with
  | zero =>
    rw [packWord_at_zero (hofs.trans h), packWord_at_zero h]
    simp [State.packerFields, hphase, hcnt, hnbytes]
  | four =>
    rw [packWord_at_four (hofs.trans h), packWord_at_four h]
    simp [State.packerFields, hphase, hhold, hcnt, hnbytes]

theorem flushPacker_agree (hs : s.packerFields = s'.packerFields) :
    s.flushPacker.packerFields = s'.flushPacker.packerFields ∧
      s.flushPacker.result = s'.flushPacker.result := by
  obtain ⟨-, hofs, hhold, hcnt, hnbytes⟩ := packerFields_eq_iff.mp hs
  cases h : s'.pkOfs with
  | zero =>
    rw [flushPacker_at_zero (hofs.trans h), flushPacker_at_zero h]
    simp [State.packerFields, hcnt, hnbytes]
  | four =>
    rw [flushPacker_at_four (hofs.trans h), flushPacker_at_four h]
    simp [State.packerFields, hhold, hcnt, hnbytes]

/-- The guard reads the phase, on which the states agree, so both run the body or both refuse. -/
theorem requirePacking_agree {body : State → State} (hs : s.packerFields = s'.packerFields)
    (hbody : (body s).packerFields = (body s').packerFields ∧ (body s).result = (body s').result)
    (h : requirePacking s body = .next t) (h' : requirePacking s' body = .next t') :
    t.packerFields = t'.packerFields ∧ t.result = t'.result := by
  have hphase : s.pkPhase = s'.pkPhase := (packerFields_eq_iff.mp hs).1
  rcases requirePacking_cases h with ⟨ha, rfl⟩ | ⟨hc, rfl⟩ <;>
    rcases requirePacking_cases h' with ⟨ha', rfl⟩ | ⟨hc', rfl⟩
  · exact hbody
  · exact absurd (hphase ▸ ha) hc'
  · exact absurd (hphase ▸ ha') hc
  · exact ⟨hs, rfl⟩

/-- A PK_START answers the same packer from any two states (R105). -/
theorem exec_pkStart_agree (h : exec .pkStart s = .next t) (h' : exec .pkStart s' = .next t') :
    t.packerFields = t'.packerFields ∧ t.result = t'.result := by
  obtain rfl := Outcome.next.inj h
  obtain rfl := Outcome.next.inj h'
  exact ⟨rfl, rfl⟩

theorem exec_packer_agree {i : Instr} (hi : isPackerCommand i = true)
    (hs : s.packerFields = s'.packerFields) (h : exec i s = .next t) (h' : exec i s' = .next t') :
    t.packerFields = t'.packerFields ∧ t.result = t'.result := by
  cases i
  case pkStart => exact exec_pkStart_agree h h'
  case pkWord c a k => exact requirePacking_agree hs (packWord_agree hs _) h h'
  case pkComment => exact requirePacking_agree hs ⟨hs, rfl⟩ h h'
  case pkFlush => exact requirePacking_agree hs (flushPacker_agree hs) h h'
  all_goals cases hi

/-- In two states that agree on the packer, every instruction leaves equal packers and delivers equal bytes. -/
theorem exec_keeps_packer_agreement {i : Instr} (hs : s.packerFields = s'.packerFields)
    (h : exec i s = .next t) (h' : exec i s' = .next t') :
    t.packerFields = t'.packerFields ∧ t.result.bytesOut = t'.result.bytesOut := by
  cases hi : isPackerCommand i with
  | true =>
    obtain ⟨hfields, hresult⟩ := exec_packer_agree hi hs h h'
    exact ⟨hfields, congrArg _ hresult⟩
  | false =>
    obtain ⟨hfields, hout⟩ := exec_frame_packer hi h
    obtain ⟨hfields', hout'⟩ := exec_frame_packer hi h'
    exact ⟨hfields.trans (hs.trans hfields'.symm), hout.trans hout'.symm⟩

end Packer

/-! ## Two states that agree on the unpacker -/

section Unpacker

variable {s s' t t' : State}

theorem unpackByte_agree (hs : s.unpackerFields = s'.unpackerFields) (b : Byte) :
    (s.unpackByte b).unpackerFields = (s'.unpackByte b).unpackerFields ∧
      (s.unpackByte b).result = (s'.unpackByte b).result := by
  obtain ⟨hphase, hn, hacc, hnbytes, hcnt⟩ := unpackerFields_eq_iff.mp hs
  cases h : s'.upN with
  | zero =>
    rw [unpackByte_at_zero (hn.trans h), unpackByte_at_zero h]
    simp [State.unpackerFields, hphase, hcnt, hnbytes]
  | eight =>
    rw [unpackByte_at_eight (hn.trans h), unpackByte_at_eight h]
    simp [State.unpackerFields, hphase, hacc, hcnt, hnbytes]
  | four =>
    rw [unpackByte_at_four (hn.trans h), unpackByte_at_four h]
    simp [State.unpackerFields, hphase, hacc, hcnt, hnbytes]

theorem endUnpacker_agree (hs : s.unpackerFields = s'.unpackerFields) :
    s.endUnpacker.unpackerFields = s'.endUnpacker.unpackerFields ∧
      s.endUnpacker.result = s'.endUnpacker.result := by
  obtain ⟨-, -, -, hnbytes, hcnt⟩ := unpackerFields_eq_iff.mp hs
  simp [State.unpackerFields, hcnt, hnbytes]

/-- The guard reads the phase, on which the states agree, so both run the body or both refuse. -/
theorem requireUnpacking_agree {body : State → State} (hs : s.unpackerFields = s'.unpackerFields)
    (hbody : (body s).unpackerFields = (body s').unpackerFields ∧ (body s).result = (body s').result)
    (h : requireUnpacking s body = .next t) (h' : requireUnpacking s' body = .next t') :
    t.unpackerFields = t'.unpackerFields ∧ t.result = t'.result := by
  have hphase : s.upPhase = s'.upPhase := (unpackerFields_eq_iff.mp hs).1
  rcases requireUnpacking_cases h with ⟨ha, rfl⟩ | ⟨hc, rfl⟩ <;>
    rcases requireUnpacking_cases h' with ⟨ha', rfl⟩ | ⟨hc', rfl⟩
  · exact hbody
  · exact absurd (hphase ▸ ha) hc'
  · exact absurd (hphase ▸ ha') hc
  · exact ⟨hs, rfl⟩

/-- An UP_START answers the same unpacker from any two states (R119). -/
theorem exec_upStart_agree (h : exec .upStart s = .next t) (h' : exec .upStart s' = .next t') :
    t.unpackerFields = t'.unpackerFields ∧ t.result = t'.result := by
  obtain rfl := Outcome.next.inj h
  obtain rfl := Outcome.next.inj h'
  exact ⟨rfl, rfl⟩

theorem exec_unpacker_agree {i : Instr} (hi : isUnpackerCommand i = true)
    (hs : s.unpackerFields = s'.unpackerFields) (h : exec i s = .next t) (h' : exec i s' = .next t') :
    t.unpackerFields = t'.unpackerFields ∧ t.result = t'.result := by
  cases i
  case upStart => exact exec_upStart_agree h h'
  case upByte b => exact requireUnpacking_agree hs (unpackByte_agree hs b) h h'
  case upEnd => exact requireUnpacking_agree hs (endUnpacker_agree hs) h h'
  all_goals cases hi

/-- In two states that agree on the unpacker, every instruction leaves equal unpackers and delivers equal words. -/
theorem exec_keeps_unpacker_agreement {i : Instr} (hs : s.unpackerFields = s'.unpackerFields)
    (h : exec i s = .next t) (h' : exec i s' = .next t') :
    t.unpackerFields = t'.unpackerFields ∧ t.result.wordsOut = t'.result.wordsOut := by
  cases hi : isUnpackerCommand i with
  | true =>
    obtain ⟨hfields, hresult⟩ := exec_unpacker_agree hi hs h h'
    exact ⟨hfields, congrArg _ hresult⟩
  | false =>
    obtain ⟨hfields, hout⟩ := exec_frame_unpacker hi h
    obtain ⟨hfields', hout'⟩ := exec_frame_unpacker hi h'
    exact ⟨hfields.trans (hs.trans hfields'.symm), hout.trans hout'.symm⟩

end Unpacker

theorem exec_result_of_no_unit {i : Instr} {s s' t t' : State} (hp : isPackerCommand i = false)
    (hu : isUnpackerCommand i = false) (h : exec i s = .next t) (h' : exec i s' = .next t') :
    t.result = t'.result := by
  rcases exec_cases i with ⟨r, hexec, -⟩ | rfl | ⟨c, a, k, rfl⟩ | rfl | rfl | rfl | ⟨b, rfl⟩ | rfl
  · rw [hexec] at h h'
    obtain rfl := Outcome.next.inj h
    obtain rfl := Outcome.next.inj h'
    rfl
  iterate 4 · cases hp
  iterate 3 · cases hu

/-- Settles O52. -/
theorem unitReadsOnlyItself : Obligations.UnitReadsOnlyItself :=
  fun _ _ _ _ _ h h' =>
    ⟨fun hp hs => exec_packer_agree hp hs h h', fun hu hs => exec_unpacker_agree hu hs h h',
      fun hp hu => exec_result_of_no_unit hp hu h h'⟩

/-! ## Runs from two states side by side -/

/-- The runs of `cs` from `s` and from `s'` end in states with the same view and deliver the same output. -/
def RunsAgree {α β : Type} (view : State → α) (out : CommandResult → List β) (cs : List Instr)
    (s s' : State) : Prop :=
  ∃ rs t rs' t', runCommands cs s = some (rs, t) ∧ runCommands cs s' = some (rs', t') ∧
    rs.flatMap out = rs'.flatMap out ∧ view t = view t'

section Runs

variable {α β : Type} {view : State → α} {out : CommandResult → List β}

theorem RunsAgree.cons {i : Instr} {cs : List Instr} {s s' t t' : State}
    (h : exec i s = .next t) (h' : exec i s' = .next t') (hout : out t.result = out t'.result)
    (hrest : RunsAgree view out cs t t') : RunsAgree view out (i :: cs) s s' := by
  obtain ⟨rs, u, rs', u', hrun, hrun', houts, hview⟩ := hrest
  refine ⟨t.result :: rs, u, t'.result :: rs', u', ?_, ?_, ?_, hview⟩
  · rw [runCommands_cons h, hrun, Option.map_some]
  · rw [runCommands_cons h', hrun', Option.map_some]
  · rw [List.flatMap_cons, List.flatMap_cons, hout, houts]

/-- When every instruction keeps the agreement of two states and delivers the same in both, so does every run. -/
theorem runsAgree_of_exec
    (hexec : ∀ {i : Instr} {s s' t t' : State}, view s = view s' → exec i s = .next t →
      exec i s' = .next t' → view t = view t' ∧ out t.result = out t'.result)
    (cs : List Instr) {s s' : State} (hview : view s = view s') : RunsAgree view out cs s s' := by
  induction cs generalizing s s' with
  | nil => exact ⟨[], s, [], s', rfl, rfl, rfl, hview⟩
  | cons i cs ih =>
    obtain ⟨t, h⟩ := exec_next i s
    obtain ⟨t', h'⟩ := exec_next i s'
    obtain ⟨hview', hout⟩ := hexec hview h h'
    exact .cons h h' hout (ih hview')

end Runs

/-- A packing stream depends only on the instructions since its PK_START. -/
theorem runsAgree_pkStart (cs : List Instr) (s s' : State) :
    RunsAgree State.packerFields CommandResult.bytesOut (.pkStart :: cs) s s' :=
  .cons (exec_pkStart s) (exec_pkStart s') rfl (runsAgree_of_exec exec_keeps_packer_agreement cs rfl)

/-- An unpacking stream depends only on the instructions since its UP_START. -/
theorem runsAgree_upStart (cs : List Instr) (s s' : State) :
    RunsAgree State.unpackerFields CommandResult.wordsOut (.upStart :: cs) s s' :=
  .cons (exec_upStart s) (exec_upStart s') rfl (runsAgree_of_exec exec_keeps_unpacker_agreement cs rfl)

/-- Settles O55: a START writes its unit's fields, and the runs after it agree. -/
theorem streamsStartFresh : Obligations.StreamsStartFresh :=
  ⟨fun s => ⟨_, _, exec_pkStart s, exec_upStart s, rfl, rfl, rfl, rfl, rfl, rfl, rfl, rfl⟩,
    fun cs s s' => ⟨runsAgree_pkStart cs s s', runsAgree_upStart cs s s'⟩⟩

end Sys2Proof.Machine
end

section
/-! SUPPORT. The bits of an encoded stream (20_memory.md R35, R36, R40): the bit stream of a byte sequence is what
`streamBit` numbers, and that of an encoded word sequence is the words' bits, then the pad. -/

namespace Sys2Proof.Machine

open Sys2Proof Host

/-! ## The bits of one value -/

@[simp] theorem length_bitsOf {n : Nat} (v : BitVec n) : (bitsOf v).length = n := by
  simp [bitsOf]

theorem getElem?_bitsOf {n i : Nat} (v : BitVec n) (hi : i < n) : (bitsOf v)[i]? = some (v.getMsbD i) := by
  simp [bitsOf, hi]

/-- Counting a bit from the most significant end is R35's and R36's numbering. -/
theorem getMsbD_eq_getLsbD_of_lt {n i : Nat} (v : BitVec n) (hi : i < n) :
    v.getMsbD i = v.getLsbD (n - 1 - i) := by
  simp [BitVec.getMsbD, hi]

/-- The value spelt after bits already read: those move up by the bits that follow. -/
theorem foldl_bits_eq (l : List Bool) (a : Nat) :
    l.foldl (fun n b => 2 * n + b.toNat) a = a * 2 ^ l.length + valueOfBits l := by
  induction l generalizing a with
  | nil => simp [valueOfBits]
  | cons b l ih =>
    simp only [valueOfBits, List.foldl_cons, List.length_cons] at ih ⊢
    rw [ih (2 * a + b.toNat), ih (2 * 0 + b.toNat)]
    ring

theorem valueOfBits_cons (b : Bool) (l : List Bool) :
    valueOfBits (b :: l) = b.toNat * 2 ^ l.length + valueOfBits l := by
  simpa [valueOfBits] using foldl_bits_eq l b.toNat

theorem toNat_ofBoolListBE (l : List Bool) : (BitVec.ofBoolListBE l).toNat = valueOfBits l := by
  induction l with
  | nil => rfl
  | cons b l ih =>
    rw [BitVec.ofBoolListBE, BitVec.toNat_cons', ih, valueOfBits_cons, Nat.shiftLeft_eq]

/-- The number that a bit string spells has that string as its bits. -/
theorem bitsOf_valueOfBits (l : List Bool) : bitsOf (BitVec.ofNat l.length (valueOfBits l)) = l := by
  rw [← toNat_ofBoolListBE, BitVec.ofNat_toNat, BitVec.setWidth_eq]
  refine List.ext_getElem (length_bitsOf _) fun i _ hi => ?_
  simp [bitsOf, hi]

/-! ## Values of one width, laid end to end -/

theorem length_flatMap_bitsOf {n : Nat} (vs : List (BitVec n)) :
    (vs.flatMap bitsOf).length = n * vs.length := by
  induction vs with
  | nil => rfl
  | cons v vs ih =>
    rw [List.flatMap_cons, List.length_append, length_bitsOf, ih, List.length_cons, Nat.mul_succ, Nat.add_comm]

theorem getElem?_flatMap_bitsOf {n i : Nat} (vs : List (BitVec n)) (j : Nat) (hi : i < n) :
    (vs.flatMap bitsOf)[n * j + i]? = vs[j]?.map (fun v => v.getMsbD i) := by
  induction vs generalizing j with
  | nil => rfl
  | cons v vs ih =>
    cases j with
    | zero =>
      have hin : n * 0 + i < (bitsOf v).length := by rwa [length_bitsOf, Nat.mul_zero, Nat.zero_add]
      rw [List.flatMap_cons, List.getElem?_append_left hin, Nat.mul_zero, Nat.zero_add, getElem?_bitsOf v hi]
      rfl
    | succ j =>
      have hpast : n * (j + 1) + i - n = n * j + i := by rw [Nat.mul_succ]; omega
      have hle : (bitsOf v).length ≤ n * (j + 1) + i := by rw [length_bitsOf, Nat.mul_succ]; omega
      rw [List.flatMap_cons, List.getElem?_append_right hle, length_bitsOf, hpast, ih, List.getElem?_cons_succ]

/-! ## Bytes -/

/-- R35's numbering reads the bit stream in order. -/
theorem streamBit_eq_getElem? (bs : List Byte) (k : Nat) : streamBit bs k = (bitStream bs)[k]? := by
  have hbit : k % 8 < 8 := Nat.mod_lt _ (by decide)
  calc streamBit bs k
      = bs[k / 8]?.map (fun b => b.getMsbD (k % 8)) := by
        simp only [streamBit, getMsbD_eq_getLsbD_of_lt _ hbit]
    _ = (bitStream bs)[8 * (k / 8) + k % 8]? := (getElem?_flatMap_bitsOf bs _ hbit).symm
    _ = (bitStream bs)[k]? := by rw [Nat.div_add_mod]

theorem exists_eight_cons_of_le_length {l : List Bool} (h : 8 ≤ l.length) :
    ∃ b7 b6 b5 b4 b3 b2 b1 b0 rest, l = b7 :: b6 :: b5 :: b4 :: b3 :: b2 :: b1 :: b0 :: rest := by
  match l, h with
  | _ :: _ :: _ :: _ :: _ :: _ :: _ :: _ :: _, _ => exact ⟨_, _, _, _, _, _, _, _, _, rfl⟩

/-- Cutting a bit string into bytes keeps its bits, up to the last whole byte. -/
theorem bitStream_bytesOfBits (l : List Bool) :
    bitStream (bytesOfBits l) = l.take (8 * (l.length / 8)) := by
  induction l using bytesOfBits.induct with
  | case1 b7 b6 b5 b4 b3 b2 b1 b0 rest ih =>
    have hlen : 8 * ((rest.length + 8) / 8) = 8 * (rest.length / 8) + 8 := by omega
    change bitsOf (BitVec.ofNat [b7, b6, b5, b4, b3, b2, b1, b0].length _) ++ bitStream (bytesOfBits rest) =
      List.take (8 * ((rest.length + 8) / 8)) _
    rw [bitsOf_valueOfBits, ih, hlen]
    rfl
  | case2 l hshort =>
    have hlt : l.length < 8 := by
      by_contra hge
      obtain ⟨_, _, _, _, _, _, _, _, _, hl⟩ := exists_eight_cons_of_le_length (Nat.le_of_not_lt hge)
      exact hshort _ _ _ _ _ _ _ _ _ hl
    rw [bytesOfBits.eq_2 l hshort, Nat.div_eq_of_lt hlt]
    rfl

/-! ## Encoded streams -/

/-- The pad fills the last byte (R106). -/
theorem eight_dvd_padded (n : Nat) : 8 ∣ 12 * n + padBits n := by
  unfold padBits
  omega

theorem bitStream_encodeWords (ws : List Word) :
    bitStream (encodeWords ws) = ws.flatMap bitsOf ++ List.replicate (padBits ws.length) false := by
  rw [encodeWords, bitStream_bytesOfBits]
  refine List.take_of_length_le ?_
  rw [List.length_append, length_flatMap_bitsOf, List.length_replicate,
    Nat.mul_div_cancel' (eight_dvd_padded ws.length)]

theorem eight_mul_length_encodeWords (ws : List Word) :
    8 * (encodeWords ws).length = 12 * ws.length + padBits ws.length := by
  rw [← length_flatMap_bitsOf (encodeWords ws), ← bitStream, bitStream_encodeWords, List.length_append,
    length_flatMap_bitsOf, List.length_replicate]

theorem padBits_eq (n : Nat) : padBits n = if n % 2 = 1 then 4 else 0 := by
  unfold padBits
  split <;> omega

/-- Settles O28: the bits of word `j` stand at its place among the words' bits, before the pad. -/
theorem wordPlacement : Obligations.WordPlacement := by
  intro ws j i w hw hi
  obtain ⟨hj, -⟩ := List.getElem?_eq_some_iff.mp hw
  have hbefore : 12 * j + i < (ws.flatMap bitsOf).length := by rw [length_flatMap_bitsOf]; omega
  rw [streamBit_eq_getElem?, bitStream_encodeWords, List.getElem?_append_left hbefore,
    getElem?_flatMap_bitsOf ws j hi, hw, Option.map_some, getMsbD_eq_getLsbD_of_lt w hi]

/-- A bit of an encoded stream past the last word is a pad bit. -/
theorem streamBit_encodeWords_pad {ws : List Word} {n : Nat} (hpast : 12 * ws.length ≤ n)
    (hn : n < 8 * (encodeWords ws).length) : streamBit (encodeWords ws) n = some false := by
  rw [eight_mul_length_encodeWords] at hn
  have hpast' : (ws.flatMap bitsOf).length ≤ n := by rwa [length_flatMap_bitsOf]
  rw [streamBit_eq_getElem?, bitStream_encodeWords, List.getElem?_append_right hpast', length_flatMap_bitsOf]
  exact List.getElem?_replicate_of_lt (by omega)

/-- Settles O29: the length and the pad's width follow from the whole bytes, its value from its bits. -/
theorem endPadIsZero : Obligations.EndPadIsZero := by
  refine ⟨fun ws => ⟨?_, fun n => streamBit_encodeWords_pad, ?_⟩, rfl⟩
  · have hbits := eight_mul_length_encodeWords ws
    unfold padBits at hbits
    omega
  · rw [eight_mul_length_encodeWords, Nat.add_sub_cancel_left, padBits_eq]

end Sys2Proof.Machine
end

section
/-! SUPPORT. The units side by side (20_memory.md R43, R47): what a command delivers, that commands of different units
commute, and that a unit's stream is that of its own commands. -/

namespace Sys2Proof.Machine

open Sys2Proof Host

/-! ## What a command delivers -/

theorem packWord_bytesOut_length_le (v : Word) (s : State) : (s.packWord v).result.bytesOut.length ≤ 2 := by
  cases h : s.pkOfs with
  | zero => rw [packWord_at_zero h]; simp [CommandResult.bytesOut]
  | four => rw [packWord_at_four h]; simp [CommandResult.bytesOut]

theorem flushPacker_bytesOut_length_le (s : State) : s.flushPacker.result.bytesOut.length ≤ 2 := by
  cases h : s.pkOfs with
  | zero => rw [flushPacker_at_zero h]; simp [CommandResult.bytesOut]
  | four => rw [flushPacker_at_four h]; simp [CommandResult.bytesOut]

theorem unpackByte_wordsOut_length_le (b : Byte) (s : State) :
    (s.unpackByte b).result.wordsOut.length ≤ 1 := by
  cases h : s.upN with
  | zero => rw [unpackByte_at_zero h]; simp [CommandResult.wordsOut]
  | eight => rw [unpackByte_at_eight h]; simp [CommandResult.wordsOut]
  | four => rw [unpackByte_at_four h]; simp [CommandResult.wordsOut]

section Moves

variable {s t : State} {i : Instr}

theorem PackerMove.bytesOut_length_le (h : PackerMove s i t) : t.result.bytesOut.length ≤ 2 := by
  cases h with
  | word => exact packWord_bytesOut_length_le _ s
  | flush => exact flushPacker_bytesOut_length_le s
  | _ => simp

theorem UnpackerMove.wordsOut_length_le (h : UnpackerMove s i t) : t.result.wordsOut.length ≤ 1 := by
  cases h with
  | byte b => exact unpackByte_wordsOut_length_le b s
  | _ => simp

theorem exec_output_length_le (h : exec i s = .next t) :
    t.result.bytesOut.length ≤ 2 ∧ t.result.wordsOut.length ≤ 1 := by
  rcases exec_inversion h with ⟨r, rfl, hbytes, hwords⟩ | hmove | hmove
  · simp [hbytes, hwords]
  · exact ⟨hmove.bytesOut_length_le, by simp [hmove.wordsOut_eq_nil]⟩
  · exact ⟨by simp [hmove.bytesOut_eq_nil], hmove.wordsOut_length_le⟩

end Moves

/-- Settles O57. -/
theorem responseSizes : Obligations.ResponseSizes := by
  intro i s
  obtain ⟨t, h⟩ := exec_next i s
  obtain ⟨hbytes, hwords⟩ := exec_output_length_le h
  exact ⟨t, h, hbytes, hwords, fun hp => (exec_frame_packer hp h).2, fun hu => (exec_frame_unpacker hu h).2⟩

/-! ## The mark `refused` after a command -/

theorem packWord_result_ne_refused (v : Word) (s : State) (w : RefuseReason) :
    (s.packWord v).result ≠ .refused w := by
  unfold State.packWord; split <;> simp

theorem flushPacker_result_ne_refused (s : State) (w : RefuseReason) :
    s.flushPacker.result ≠ .refused w := by
  unfold State.flushPacker; split <;> simp

theorem unpackByte_result_ne_refused (b : Byte) (s : State) (w : RefuseReason) :
    (s.unpackByte b).result ≠ .refused w := by
  unfold State.unpackByte; split <;> simp

section Mark

variable {s t : State} {i : Instr} {w : RefuseReason}

theorem PackerMove.refused_of_result (h : PackerMove s i t) (hr : t.result = .refused w) :
    t.refused = true := by
  cases h with
  | refuse => rfl
  | word => exact absurd hr (packWord_result_ne_refused _ s w)
  | flush => exact absurd hr (flushPacker_result_ne_refused s w)
  | start | comment => simp at hr

theorem UnpackerMove.refused_of_result (h : UnpackerMove s i t) (hr : t.result = .refused w) :
    t.refused = true := by
  cases h with
  | refuse => rfl
  | byte b => exact absurd hr (unpackByte_result_ne_refused b s w)
  | start | stop => simp at hr

/-- After a command the mark is set exactly if it was set before or the command is refused (10_state.md R31). -/
theorem exec_refused_iff (h : exec i s = .next t) :
    t.refused = true ↔ s.refused = true ∨ ∃ why, t.result = .refused why := by
  constructor
  · rcases exec_refused_cases h with heq | ⟨-, hwhy⟩
    · exact fun hset => .inl (heq ▸ hset)
    · exact fun _ => .inr hwhy
  · rintro (hset | ⟨why, hr⟩)
    · rcases exec_refused_cases h with heq | ⟨hset', -⟩
      · exact heq.trans hset
      · exact hset'
    · rcases exec_inversion h with ⟨r, rfl, -⟩ | hmove | hmove
      · simp at hr
      · exact hmove.refused_of_result hr
      · exact hmove.refused_of_result hr

end Mark

/-! ## Commands of different units commute -/

theorem isUnpackerCommand_eq_false_of_packer {i : Instr} (h : isPackerCommand i = true) :
    isUnpackerCommand i = false := by
  cases i
  case pkStart | pkWord | pkComment | pkFlush => rfl
  all_goals cases h

theorem isPackerCommand_eq_false_of_unpacker {i : Instr} (h : isUnpackerCommand i = true) :
    isPackerCommand i = false :=
  Bool.eq_false_iff.mpr fun hp => by simp [isUnpackerCommand_eq_false_of_packer hp] at h

theorem runCommands_pair {i j : Instr} {s t u : State} (hi : exec i s = .next t) (hj : exec j t = .next u) :
    runCommands [i, j] s = some ([t.result, u.result], u) := by
  rw [runCommands_cons hi, runCommands_cons hj]
  rfl

section Commute

variable {i j : Instr} {s si sj sij sji : State}

/-- Each unit's command finds its unit as it was, so it does and answers the same before and after the other. -/
theorem exec_units_commute (hp : isPackerCommand i = true) (hu : isUnpackerCommand j = true)
    (hi : exec i s = .next si) (hij : exec j si = .next sij)
    (hj : exec j s = .next sj) (hji : exec i sj = .next sji) :
    si.result = sji.result ∧ sij.result = sj.result ∧ sij.block = sji.block := by
  have hu' := isUnpackerCommand_eq_false_of_packer hp
  have hp' := isPackerCommand_eq_false_of_unpacker hu
  obtain ⟨hpack, hri⟩ := exec_packer_agree hp (exec_frame_packer hp' hj).1.symm hi hji
  obtain ⟨hunpack, hrj⟩ := exec_unpacker_agree hu (exec_frame_unpacker hu' hi).1 hij hj
  have hpackers : sij.packerFields = sji.packerFields := (exec_frame_packer hp' hij).1.trans hpack
  have hunpackers : sij.unpackerFields = sji.unpackerFields :=
    hunpack.trans (exec_frame_unpacker hu' hji).1.symm
  have hrefused : sij.refused = sji.refused := by
    rw [Bool.eq_iff_iff, exec_refused_iff hij, exec_refused_iff hi, exec_refused_iff hji, exec_refused_iff hj,
      hri, hrj, or_right_comm]
  have hfaults : sij.faults = sji.faults := by
    rw [exec_faults hij, exec_faults hi, exec_faults hji, exec_faults hj]
  exact ⟨hri, hrj, by simp only [State.block, State.marks, hpackers, hunpackers, hrefused, hfaults]⟩

end Commute

/-- Settles O53. -/
theorem unitsCommute : Obligations.UnitsCommute := by
  intro i j s hp hu
  obtain ⟨si, hi⟩ := exec_next i s
  obtain ⟨sij, hij⟩ := exec_next j si
  obtain ⟨sj, hj⟩ := exec_next j s
  obtain ⟨sji, hji⟩ := exec_next i sj
  obtain ⟨hri, hrj, hblock⟩ := exec_units_commute hp hu hi hij hj hji
  refine ⟨si.result, sij.result, sij, sji, runCommands_pair hi hij, ?_, hblock⟩
  rw [hri, hrj]
  exact runCommands_pair hj hji

/-! ## A run and the commands of one unit in it -/

/-- The run of `cs` from `s` and the run from `s'` of the instructions of `cs` that `p` keeps end in states with the
same view and deliver the same output. -/
def FilteredRunAgrees {α β : Type} (view : State → α) (out : CommandResult → List β) (p : Instr → Bool)
    (cs : List Instr) (s s' : State) : Prop :=
  ∃ rs t rs' t', runCommands cs s = some (rs, t) ∧ runCommands (cs.filter p) s' = some (rs', t') ∧
    rs.flatMap out = rs'.flatMap out ∧ view t = view t'

section FilteredRuns

variable {α β : Type} {view : State → α} {out : CommandResult → List β} {p : Instr → Bool}
  {i : Instr} {cs : List Instr} {s s' t t' : State}

theorem FilteredRunAgrees.cons_kept (hi : p i = true) (h : exec i s = .next t) (h' : exec i s' = .next t')
    (hout : out t.result = out t'.result) (hrest : FilteredRunAgrees view out p cs t t') :
    FilteredRunAgrees view out p (i :: cs) s s' := by
  obtain ⟨rs, u, rs', u', hrun, hrun', houts, hview⟩ := hrest
  refine ⟨t.result :: rs, u, t'.result :: rs', u', ?_, ?_, ?_, hview⟩
  · rw [runCommands_cons h, hrun, Option.map_some]
  · rw [List.filter_cons_of_pos hi, runCommands_cons h', hrun', Option.map_some]
  · rw [List.flatMap_cons, List.flatMap_cons, hout, houts]

theorem FilteredRunAgrees.cons_dropped (hi : p i = false) (h : exec i s = .next t)
    (hout : out t.result = []) (hrest : FilteredRunAgrees view out p cs t s') :
    FilteredRunAgrees view out p (i :: cs) s s' := by
  obtain ⟨rs, u, rs', u', hrun, hrun', houts, hview⟩ := hrest
  refine ⟨t.result :: rs, u, rs', u', ?_, ?_, ?_, hview⟩
  · rw [runCommands_cons h, hrun, Option.map_some]
  · rw [List.filter_cons_of_neg (by simp [hi]), hrun']
  · rw [List.flatMap_cons, hout, List.nil_append, houts]

/-- When every instruction keeps the agreement of two states, and those that `p` drops neither move the view nor
deliver anything, a run is as if only the instructions that `p` keeps had been in it. -/
theorem filteredRunAgrees_of_exec
    (hkeep : ∀ {i : Instr} {s s' t t' : State}, view s = view s' → exec i s = .next t →
      exec i s' = .next t' → view t = view t' ∧ out t.result = out t'.result)
    (hframe : ∀ {i : Instr} {s t : State}, p i = false → exec i s = .next t →
      view t = view s ∧ out t.result = [])
    (cs : List Instr) {s s' : State} (hview : view s = view s') : FilteredRunAgrees view out p cs s s' := by
  induction cs generalizing s s' with
  | nil => exact ⟨[], s, [], s', rfl, rfl, rfl, hview⟩
  | cons i cs ih =>
    obtain ⟨t, h⟩ := exec_next i s
    cases hi : p i with
    | true =>
      obtain ⟨t', h'⟩ := exec_next i s'
      obtain ⟨hview', hout⟩ := hkeep hview h h'
      exact .cons_kept hi h h' hout (ih hview')
    | false =>
      obtain ⟨hsame, hout⟩ := hframe hi h
      exact .cons_dropped hi h hout (ih (hsame.trans hview))

end FilteredRuns

/-- Settles O54: each unit's frame and agreement lemmas, over a run. -/
theorem interleavingInvisible : Obligations.InterleavingInvisible := by
  intro cs s
  obtain ⟨rs, t, ps, tp, hrun, hpack, hbytes, hpacker⟩ :=
    filteredRunAgrees_of_exec exec_keeps_packer_agreement exec_frame_packer cs (rfl : s.packerFields = _)
  obtain ⟨rs', t', us, tu, hrun', hunpack, hwords, hunpacker⟩ :=
    filteredRunAgrees_of_exec exec_keeps_unpacker_agreement exec_frame_unpacker cs (rfl : s.unpackerFields = _)
  obtain ⟨rfl, rfl⟩ := Prod.mk.inj (Option.some.inj (hrun.symm.trans hrun'))
  exact ⟨rs, t, ps, tp, us, tu, hrun, hpack, hunpack, hbytes, hpacker, hwords, hunpacker⟩

end Sys2Proof.Machine
end

section
/-! SUPPORT. The word format and its tables (30_encoding.md R49, R53 to R72): a word is the concatenation of its three
fields, the instruction table is a bijection, and a word row is the words that show its code under the mask `0xF00`. -/

namespace Sys2Proof

open Sys2Proof.Machine

/-! ## A word and its fields -/

theorem enc_eq_append (i : InstCode) (a : Addr) (k : CtrlCode) : enc i a k = i ++ a ++ k := by
  apply BitVec.eq_of_getLsbD_eq
  intro n hn
  rw [getLsbD_enc _ _ _ _ hn]
  change _ = BitVec.getLsbD (w := 4 + 6 + 2) (i ++ a ++ k) n
  rw [BitVec.getLsbD_append, BitVec.getLsbD_append, Nat.sub_sub]
  by_cases h2 : n < 2
  · simp [h2]
  · simp [h2, show n - 2 < 6 ↔ n < 8 by omega]

/-- No shifted field loses a bit, since the word is wide enough for it. -/
theorem toNat_enc (i : InstCode) (a : Addr) (k : CtrlCode) :
    (enc i a k).toNat = (i.toNat <<< 8) ||| (a.toNat <<< 2) ||| k.toNat := by
  have hi := i.isLt
  have ha := a.isLt
  have hk := k.isLt
  simp only [enc, BitVec.toNat_or, BitVec.toNat_shiftLeft, BitVec.toNat_setWidth, Nat.shiftLeft_eq]
  simp (disch := omega) only [Nat.mod_eq_of_lt]

/-- A word is what its three fields encode to (40_word_codec.md R102). -/
@[simp] theorem enc_fields (v : Word) : enc (instField v) (addrField v) (ctrlField v) = v := by
  apply BitVec.eq_of_getLsbD_eq
  intro n hn
  rw [getLsbD_enc _ _ _ _ hn]
  by_cases h2 : n < 2
  · simp [ctrlField, h2]
  · by_cases h8 : n < 8
    · simp [addrField, h2, h8, show n - 2 < 6 by omega, show 2 + (n - 2) = n by omega]
    · simp [instField, h2, h8, show n - 8 < 4 by omega, show 8 + (n - 8) = n by omega]

/-- Settles O1: the word is its fields laid end to end, and the decoder cuts them out again. -/
theorem wordFormatFields : Obligations.WordFormatFields :=
  ⟨fun i a k => ⟨toNat_enc i a k, enc_eq_append i a k⟩,
    fun v => ⟨fun n hn => by simp [instField, hn], fun n hn => by simp [addrField, hn],
      fun n hn => by simp [ctrlField, hn]⟩⟩

/-! ## The instruction table -/

@[simp] theorem Opcode.ofCode_code (o : Opcode) : Opcode.ofCode o.code = o := by
  cases o <;> rfl

@[simp] theorem Opcode.code_ofCode (c : InstCode) : (Opcode.ofCode c).code = c := by
  revert c
  decide

/-! ## The word rows -/

@[simp] theorem encode_wordRow (o : Opcode) (a : Addr) (k : CtrlCode) :
    encode (wordRow o a k) = .ofWord (enc o.code a k) := by
  cases o <;> rfl

@[simp] theorem row_mnemonic_wordRow (o : Opcode) (a : Addr) (k : CtrlCode) :
    (wordRow o a k).row.mnemonic = o.mnemonic := by
  cases o <;> rfl

@[simp] theorem decodeWord_enc (o : Opcode) (a : Addr) (k : CtrlCode) :
    decodeWord (enc o.code a k) = wordRow o a k := by
  simp [decodeWord]

theorem decode_ofWord (v : Word) : decode (.ofWord v) = .ok (decodeWord v) := by
  simp [decode, Request.ofWord]

@[simp] theorem encode_decodeWord (v : Word) : encode (decodeWord v) = .ofWord v := by
  simp [decodeWord]

/-- Moving a code to its place in the word loses nothing. -/
theorem shifted_code_injective {c d : InstCode}
    (h : (c.setWidth 12 <<< 8 : Word) = d.setWidth 12 <<< 8) : c = d := by
  have henc (e : InstCode) : enc e 0 0 = e.setWidth 12 <<< 8 := by simp [enc]
  calc c = instField (enc c 0 0) := (instField_enc c 0 0).symm
    _ = instField (enc d 0 0) := by rw [henc, henc, h]
    _ = d := instField_enc d 0 0

/-- A word falls under a row exactly when its instruction field is the row's code. -/
theorem and_mask_eq_iff (v : Word) (c : InstCode) :
    v &&& 0xF00#12 = c.setWidth 12 <<< 8 ↔ instField v = c := by
  have hmask : v &&& 0xF00#12 = (instField v).setWidth 12 <<< 8 := by
    simpa using enc_and_mask (instField v) (addrField v) (ctrlField v)
  rw [hmask]
  exact ⟨shifted_code_injective, fun h => by rw [h]⟩

/-- What each of R54 to R69 says, for every row at once: its match is its code in the word's top four bits. -/
theorem wordRowStated (o : Opcode) :
    WordRowStated o o.code o.mnemonic (o.code.setWidth 12 <<< 8) (wordRow o) := by
  refine ⟨rfl, rfl, fun a k => ⟨enc_eq_append _ _ _, enc_and_mask _ _ _, ?_, row_mnemonic_wordRow o a k⟩,
    fun v => ?_⟩
  · rw [encode_wordRow, enc_eq_append]
    rfl
  · rw [and_mask_eq_iff]
    constructor
    · intro hcode
      have hv : enc o.code (addrField v) (ctrlField v) = v := by rw [← hcode, enc_fields]
      exact ⟨addrField v, ctrlField v, by rw [← decodeWord_enc, hv], by rw [← enc_eq_append, hv]⟩
    · rintro ⟨a, k, -, rfl⟩
      rw [← enc_eq_append, instField_enc]

/-- Settles O2: the statement of every row, at codes 0 to 7. -/
theorem wordRowsZeroToSeven : Obligations.WordRowsZeroToSeven :=
  ⟨⟨wordRowStated .nop0, rfl⟩, ⟨wordRowStated .ld, rfl⟩, ⟨wordRowStated .add, rfl⟩, ⟨wordRowStated .sub, rfl⟩,
    ⟨wordRowStated .one, rfl, rfl⟩, ⟨wordRowStated .nand, rfl⟩, ⟨wordRowStated .or, rfl⟩,
    ⟨wordRowStated .xor, rfl⟩⟩

/-- Settles O3: the statement of every row, at codes 8 to 15. -/
theorem wordRowsEightToFifteen : Obligations.WordRowsEightToFifteen :=
  ⟨⟨wordRowStated .sto, rfl⟩, ⟨wordRowStated .stoc, rfl, rfl⟩, ⟨wordRowStated .ien, rfl⟩,
    ⟨wordRowStated .oen, rfl⟩, ⟨wordRowStated .ioc, rfl⟩, ⟨wordRowStated .rtn, rfl⟩, ⟨wordRowStated .skz, rfl⟩,
    ⟨wordRowStated .nopf, rfl⟩⟩

/-! ## The address classes -/

/-- R71's table and R72's chain of ranges, compared at each of the 64 addresses. -/
theorem classify_eq_classifyByRanges (a : Addr) : classify a = classifyByRanges a := by
  revert a
  decide

theorem AClass.code_ne_seven (c : AClass) : c.code ≠ 7 := by
  cases c <;> decide

/-- The class code of an address, range by range. -/
theorem classify_code (a : Addr) :
    (classify a).code =
      if a.toNat ≤ 39 then 0 else if a.toNat ≤ 47 then 1 else if a.toNat ≤ 55 then 2
      else if a.toNat = 56 then 3 else if a.toNat = 57 then 4 else if a.toNat ≤ 59 then 5 else 6 := by
  rw [classify_eq_classifyByRanges, classifyByRanges]
  simp only [apply_ite AClass.code]
  rfl

/-- Settles O5, by R72's chain of ranges. -/
theorem classRanges : Obligations.ClassRanges := by
  refine ⟨fun a => ?_, ⟨rfl, rfl, rfl, rfl, rfl, rfl, rfl⟩, ⟨rfl, rfl, rfl, rfl, rfl, rfl, rfl⟩⟩
  refine ⟨fun h => ?_, fun h => ?_, fun h => ?_, fun h => ?_, fun h => ?_, fun h => ?_, fun h => ?_,
    AClass.code_ne_seven _, classify_eq_classifyByRanges a⟩ <;>
  · rw [classify_code]
    simp (disch := omega) only [if_pos, if_neg]

end Sys2Proof
end

section
/-! SUPPORT. Requests (30_encoding.md R80 to R82): the decoder command code by command code, the requests that differ
only in what decoding ignores, and the step on a reserved code. -/

namespace Sys2Proof.Machine

open Sys2Proof Host

/-! ## The command codes -/

/-- The codes R82 reserves. -/
def ReservedCode (c : BitVec 4) : Prop := c = 0x0 ∨ 0xB ≤ c.toNat

theorem reservedCode_iff (c : BitVec 4) :
    ReservedCode c ↔ c = 0x0 ∨ c = 0xB ∨ c = 0xC ∨ c = 0xD ∨ c = 0xE ∨ c = 0xF := by
  unfold ReservedCode
  revert c
  decide

/-- Every command code is reserved or one of R81's ten. -/
theorem command_code_cases (c : BitVec 4) :
    ReservedCode c ∨ c = 0x1 ∨ c = 0x2 ∨ c = 0x3 ∨ c = 0x4 ∨ c = 0x5 ∨ c = 0x6 ∨ c = 0x7 ∨ c = 0x8 ∨ c = 0x9 ∨
      c = 0xA := by
  unfold ReservedCode
  revert c
  decide

theorem decode_reserved {p : Ports} (h : ReservedCode p.cmd) :
    decode (.ports p) = .error (.reservedCommand p.cmd) := by
  rw [reservedCode_iff] at h
  rcases h with h | h | h | h | h | h <;> simp [decode, decodePorts, h]

/-- Settles O15: the decoder's arm for each code. -/
theorem commandCodes : Obligations.CommandCodes := by
  intro p
  refine ⟨decode_reserved, ?_, ?_, ?_, ?_, ?_, ?_, ?_, ?_, ?_, ?_⟩ <;>
  · intro h
    simp [decode, decodePorts, h]

/-! ## Decoding against encoding -/

theorem decode_encode_wordRow (o : Opcode) (a : Addr) (k : CtrlCode) :
    decode (encode (wordRow o a k)) = .ok (wordRow o a k) := by
  rw [encode_wordRow, decode_ofWord, decodeWord_enc]

/-- Decoding undoes encoding, for every instruction. -/
theorem decode_encode : (i : Instr) → decode (encode i) = .ok i
  | .nop0 a k => decode_encode_wordRow .nop0 a k
  | .ld a k => decode_encode_wordRow .ld a k
  | .add a k => decode_encode_wordRow .add a k
  | .sub a k => decode_encode_wordRow .sub a k
  | .one a k => decode_encode_wordRow .one a k
  | .nand a k => decode_encode_wordRow .nand a k
  | .or a k => decode_encode_wordRow .or a k
  | .xor a k => decode_encode_wordRow .xor a k
  | .sto a k => decode_encode_wordRow .sto a k
  | .stoc a k => decode_encode_wordRow .stoc a k
  | .ien a k => decode_encode_wordRow .ien a k
  | .oen a k => decode_encode_wordRow .oen a k
  | .ioc a k => decode_encode_wordRow .ioc a k
  | .rtn a k => decode_encode_wordRow .rtn a k
  | .skz a k => decode_encode_wordRow .skz a k
  | .nopf a k => decode_encode_wordRow .nopf a k
  | .wenc _ _ _ | .wdec _ | .acls _ => by simp [encode, decode, decodePorts]
  | .pkStart | .pkWord _ _ _ | .pkComment | .pkFlush => by simp [encode, decode, decodePorts]
  | .upStart | .upByte _ | .upEnd => by simp [encode, decode, decodePorts]

/-- Filling a decoder input's word up again leaves the input with bits 12 and up cleared. -/
theorem setWidth_wordOfInput (x : BitVec Config.inW) : (wordOfInput x).setWidth Config.inW = x &&& 0xFFF := by
  have hmask : x.toNat &&& 4095 = x.toNat % 4096 := Nat.and_two_pow_sub_one_eq_mod x.toNat 12
  apply BitVec.eq_of_toNat_eq
  calc ((wordOfInput x).setWidth Config.inW).toNat = x.toNat % 4096 % 2 ^ 32 := by
        simp [wordOfInput, Config.inW]
    _ = x.toNat &&& 4095 := by rw [hmask]; omega
    _ = (x &&& 0xFFF).toNat := (BitVec.toNat_and x 0xFFF).symm

/-- Every request with command ports is reserved, or is the encoding of what it decodes to up to its unused inputs. -/
theorem decode_ports_cases (p : Ports) :
    ReservedCode p.cmd ∨ ∃ i, decode (.ports p) = .ok i ∧ encode i = .ports p.usedInputs := by
  obtain ⟨-, h1, h2, h3, h4, h5, h6, h7, h8, h9, hA⟩ := commandCodes p
  rcases command_code_cases p.cmd with hc | hc | hc | hc | hc | hc | hc | hc | hc | hc | hc
  · exact .inl hc
  all_goals
    refine .inr ?_
    simp [encode, Ports.zero, Ports.usedInputs, hc, h1, h2, h3, h4, h5, h6, h7, h8, h9, hA]

theorem encode_of_decode_ports {p : Ports} {i : Instr} (h : decode (.ports p) = .ok i) :
    encode i = .ports p.usedInputs := by
  rcases decode_ports_cases p with hreserved | ⟨j, hj, henc⟩
  · exact absurd ((decode_reserved hreserved).symm.trans h) (by simp)
  · obtain rfl : j = i := Except.ok.inj (hj.symm.trans h)
    exact henc

/-- Unused inputs do not reach the decoding: without them the ports are the encoding of what they decode to. -/
theorem decode_usedInputs (p : Ports) : decode (.ports p) = decode (.ports p.usedInputs) := by
  rcases decode_ports_cases p with hreserved | ⟨i, hi, henc⟩
  · exact (decode_reserved hreserved).trans (decode_reserved (p := p.usedInputs) hreserved).symm
  · rw [hi, ← henc, decode_encode]

/-- Settles O14: the word rows by `encode_decodeWord`, the commands by `decode_ports_cases`. -/
theorem encodeOfDecode : Obligations.EncodeOfDecode := by
  refine ⟨fun x => ⟨decodeWord (wordOfInput x), rfl, ?_⟩, fun _ _ => encode_of_decode_ports, decode_usedInputs⟩
  rw [encode_decodeWord, Request.ofWord, setWidth_wordOfInput]

/-! ## The step on a reserved code -/

/-- The arm of `step` that refuses a request: the converse of the last case of `step_cases`. -/
theorem step_of_reserved {s : State} {q : Request} {rest : List Request} {c : BitVec 4}
    (hin : s.input = q :: rest) (hrst : q.rst = false) (hfaults : s.faults = [])
    (hdec : decode q = .error (.reservedCommand c)) :
    step s = .next (State.refuse .reservedCommand { s with input := rest }) := by
  have hstuck : s.stuck = false := s.stuck_eq_false_iff.mpr hfaults
  simp [step, fetch_of_issued hin, hrst, hstuck, hdec]

/-- Settles O16: a reserved code does not decode, and the step refuses what does not decode. -/
theorem reservedCommandRefused : Obligations.ReservedCommandRefused :=
  fun _ _ _ hin hrst hfaults hcmd => step_of_reserved hin hrst hfaults (decode_reserved hcmd)

end Sys2Proof.Machine
end

section
/-! SUPPORT. The toolchain's numerals and mnemonics (30_encoding.md R86 to R88): the base is read from a numeral's second
character, and a mnemonic field is looked up by its lower-case form. -/

namespace Sys2Proof.Machine

open Sys2Proof

/-! ## Numerals -/

/-- A lower-case letter that is the lower-case form of its capital, as `b`, `o` and `h` are. -/
abbrev IsLowerLetter (c : Char) : Prop := c.toLower = c ∧ c.toUpper.toLower = c

/-- Whatever `ASM_PREFIX_CASE` allows, a numeral shows its base's mark, in one case or the other, as its second
character. -/
theorem mark_of_numeralOfBase {upperToo : Bool} {mark : Char} {base : Nat} {tok : List Char}
    (hmark : IsLowerLetter mark) (h : (numeralOfBase upperToo mark base tok).isSome) :
    tok[1]?.map Char.toLower = some mark := by
  obtain ⟨hlower, hupper⟩ := hmark
  unfold numeralOfBase at h
  split at h
  next m d rest =>
    split at h
    next hm =>
      simp only [Bool.or_eq_true, Bool.and_eq_true, decide_eq_true_eq, beq_iff_eq] at hm
      obtain rfl | ⟨-, rfl⟩ := hm
      · simp [hlower]
      · simp [hupper]
    next => simp at h
  next => simp at h

/-- A numeral of one base is a numeral of no base with another mark. -/
theorem numeralOfBase_eq_none_of_other {upperToo : Bool} {mark mark' : Char} {base base' : Nat} {tok : List Char}
    (hmark : IsLowerLetter mark) (hmark' : IsLowerLetter mark') (hne : mark ≠ mark')
    (h : (numeralOfBase upperToo mark base tok).isSome) : numeralOfBase upperToo mark' base' tok = none := by
  by_contra hsome
  have hread := mark_of_numeralOfBase hmark h
  have hread' := mark_of_numeralOfBase hmark' (Option.isSome_iff_ne_none.mpr hsome)
  exact hne (Option.some.inj (hread.symm.trans hread'))

/-- The three bases are tried in R88's order. -/
theorem numeral_eq_or (p : AsmParams) (tok : List Char) :
    numeral p tok =
      (numeralOfBase p.upperBaseMark 'b' 2 tok).or
        ((numeralOfBase p.upperBaseMark 'o' 8 tok).or (numeralOfBase p.upperBaseMark 'h' 16 tok)) := by
  unfold numeral
  cases numeralOfBase p.upperBaseMark 'b' 2 tok
  · cases numeralOfBase p.upperBaseMark 'o' 8 tok <;> rfl
  · rfl

/-- Alternatives of which at most one answers may be tried in either order. -/
theorem or_comm_of_exclusive {α : Type} {x y : Option α} (h : x.isSome → y = none) : x.or y = y.or x := by
  cases x with
  | none => simp
  | some a => simp [h rfl]

/-- Settles O59: the marks `b`, `o` and `h` differ, so at most one base answers. -/
theorem numeralBasesExclusive : Obligations.NumeralBasesExclusive := by
  intro p tok b o h
  have hbo : b.isSome → o = none := numeralOfBase_eq_none_of_other (by decide) (by decide) (by decide)
  have hbh : b.isSome → h = none := numeralOfBase_eq_none_of_other (by decide) (by decide) (by decide)
  have hob : o.isSome → b = none := numeralOfBase_eq_none_of_other (by decide) (by decide) (by decide)
  have hoh : o.isSome → h = none := numeralOfBase_eq_none_of_other (by decide) (by decide) (by decide)
  have hhb : h.isSome → b = none := numeralOfBase_eq_none_of_other (by decide) (by decide) (by decide)
  have hho : h.isSome → o = none := numeralOfBase_eq_none_of_other (by decide) (by decide) (by decide)
  refine ⟨fun hb => ⟨hbo hb, hbh hb⟩, fun ho => ⟨hob ho, hoh ho⟩, fun hh => ⟨hhb hh, hho hh⟩,
    numeral_eq_or p tok, ?_⟩
  calc numeral p tok = b.or (o.or h) := numeral_eq_or p tok
    _ = b.or (h.or o) := by rw [or_comm_of_exclusive hoh]
    _ = (b.or h).or o := Option.or_assoc.symm
    _ = (h.or b).or o := by rw [or_comm_of_exclusive hbh]
    _ = h.or (b.or o) := Option.or_assoc
    _ = h.or (o.or b) := by rw [or_comm_of_exclusive hbo]

/-! ## Mnemonics -/

/-- A field that spells a variant in some case selects it: the search finds a variant of that spelling, and the
spellings are distinct. -/
theorem mnemonicOf_of_spells {p : AsmParams} {tok : List Char} {o : Opcode}
    (h : tok.map Char.toLower = spelling p o) : mnemonicOf p tok = some o := by
  have hfound : (mnemonicOf p tok).isSome := List.find?_isSome.mpr ⟨o, mem_allOpcodes o, by simpa using h⟩
  obtain ⟨o', ho'⟩ := Option.isSome_iff_exists.mp hfound
  rw [ho', spelling_injective p ((mnemonicOf_spells ho').symm.trans h)]

theorem mnemonicOf_eq_some_iff {p : AsmParams} {tok : List Char} {o : Opcode} :
    mnemonicOf p tok = some o ↔ tok.map Char.toLower = spelling p o :=
  ⟨mnemonicOf_spells, mnemonicOf_of_spells⟩

/-- The spec's labels are the mnemonics of R54 to R69. -/
theorem specLabels_spelling (o : Opcode) : o.mnemonic = String.ofList (specLabels.spelling o) := by
  cases o <;> rfl

/-- The attested `sto` names another code than `stoc`, whatever the table. -/
theorem exists_sto_ne_stoc (p : AsmParams) : ∃ o, o ≠ .stoc ∧ spelling p o = ['s', 't', 'o'] := by
  obtain ⟨-, -, o, ho⟩ := spelling_allowed p
  refine ⟨o, ?_, ho⟩
  rintro rfl
  exact absurd ho (by simp [spelling, MnemonicLabels.spelling])

/-- Settles O60: every clause is `mnemonicOf_eq_some_iff` at a variant's spelling. -/
theorem mnemonicFullLiteralAnyCase : Obligations.MnemonicFullLiteralAnyCase := by
  intro p
  have hcode (o : Opcode) (tok : List Char) (h : tok.map Char.toLower = spelling p o) :
      (mnemonicOf p tok).map Opcode.code = some o.code := by
    rw [mnemonicOf_of_spells h, Option.map_some]
  obtain ⟨oSto, hne, hsto⟩ := exists_sto_ne_stoc p
  obtain ⟨hlower, -, -⟩ := spelling_allowed p
  refine ⟨fun tok o => mnemonicOf_eq_some_iff, hcode .one, hcode .nop0, hcode .stoc,
    ⟨oSto, hne, fun tok h => mnemonicOf_of_spells (h.trans hsto.symm)⟩,
    fun o => ⟨spelling p o, mnemonicOf_of_spells (hlower o).1⟩, fun hlabels o => ?_⟩
  rw [specLabels_spelling, spelling, hlabels]

end Sys2Proof.Machine
end

section
/-! SUPPORT. The word codec (40_word_codec.md R96 to R104): the control table, words at every port width, and the three
word commands, which complete with a response that does not depend on the state. -/

namespace Sys2Proof

/-! ## The control table -/

@[simp] theorem CtrlVariant.ofCode_code (v : CtrlVariant) : CtrlVariant.ofCode v.code = v := by
  cases v <;> rfl

@[simp] theorem CtrlVariant.code_ofCode (c : CtrlCode) : (CtrlVariant.ofCode c).code = c := by
  revert c
  decide

/-- Settles O6: each table is inverted from both sides. -/
theorem fieldTablesBijective : Obligations.FieldTablesBijective :=
  ⟨Opcode.ofCode_code, Opcode.code_ofCode, CtrlVariant.ofCode_code, CtrlVariant.code_ofCode, rfl, rfl, rfl, rfl⟩

end Sys2Proof

namespace Sys2Proof.Machine

open Sys2Proof Host

/-! ## Words on the encoder's output -/

/-- The fields do not overlap, so OR is addition (R96). -/
theorem toNat_enc_eq_add (i : InstCode) (a : Addr) (k : CtrlCode) :
    (enc i a k).toNat = i.toNat * 256 + a.toNat * 4 + k.toNat := by
  have haddr (n : Nat) : n <<< 6 ||| a.toNat = n <<< 6 + a.toNat := (Nat.shiftLeft_add_eq_or_of_lt a.isLt n).symm
  have hctrl (n : Nat) : n <<< 2 ||| k.toNat = n <<< 2 + k.toNat := (Nat.shiftLeft_add_eq_or_of_lt k.isLt n).symm
  rw [enc_eq_append, BitVec.toNat_append, BitVec.toNat_append, haddr, hctrl]
  simp only [Nat.shiftLeft_eq]
  omega

theorem toNat_encOutput {m : Nat} (hm : 12 ≤ m) (i : InstCode) (a : Addr) (k : CtrlCode) :
    (encOutput m i a k).toNat = i.toNat * 256 + a.toNat * 4 + k.toNat := by
  rw [encOutput, BitVec.toNat_setWidth_of_le hm, toNat_enc_eq_add]

/-! ## Words on the decoder's input -/

theorem wordOfInput_eq_extractLsb' {n : Nat} (hn : 12 ≤ n) (x : BitVec n) : wordOfInput x = x.extractLsb' 0 12 :=
  BitVec.setWidth_eq_extractLsb' hn

theorem toNat_wordOfInput {n : Nat} (x : BitVec n) : (wordOfInput x).toNat = x.toNat % 0x1000 :=
  BitVec.toNat_setWidth 12 x

/-- Filling an input's word up again gives the input back exactly when its bits 12 and up are 0. -/
theorem setWidth_wordOfInput_eq_iff {n : Nat} (hn : 12 ≤ n) (x : BitVec n) :
    (wordOfInput x).setWidth n = x ↔ x.toNat < 0x1000 := by
  rw [BitVec.toNat_eq, BitVec.toNat_setWidth_of_le hn, toNat_wordOfInput]
  exact Nat.mod_eq_iff_lt (by decide)

theorem decInput_eq {n : Nat} (x : BitVec n) :
    decInput x =
      { inst := x.extractLsb' 8 4, addr := x.extractLsb' 2 6, ctrl := x.extractLsb' 0 2,
        aclass := classify (x.extractLsb' 2 6) } := by
  have hinst : instField (wordOfInput x) = x.extractLsb' 8 4 := BitVec.extractLsb'_setWidth_of_le (by decide)
  have haddr : addrField (wordOfInput x) = x.extractLsb' 2 6 := BitVec.extractLsb'_setWidth_of_le (by decide)
  have hctrl : ctrlField (wordOfInput x) = x.extractLsb' 0 2 := BitVec.extractLsb'_setWidth_of_le (by decide)
  rw [decInput, dec, hinst, haddr, hctrl]

theorem decInput_congr {n : Nat} {x y : BitVec n} (h : wordOfInput x = wordOfInput y) :
    decInput x = decInput y :=
  congrArg dec h

/-- Bit 12 is ignored: the input in which it alone is set decodes as 0 does. -/
theorem decInput_twoPow {n : Nat} (hn : 12 < n) : decInput (BitVec.twoPow n 12) = decInput (0 : BitVec n) := by
  have hlt : 2 ^ 12 < 2 ^ n := Nat.pow_lt_pow_right (by decide) hn
  apply decInput_congr
  apply BitVec.eq_of_toNat_eq
  rw [toNat_wordOfInput, toNat_wordOfInput, BitVec.toNat_twoPow, Nat.mod_eq_of_lt hlt]
  simp

theorem twoPow_ne_zero {n : Nat} (hn : 12 < n) : BitVec.twoPow n 12 ≠ 0 := by
  intro h
  have hbit : (BitVec.twoPow n 12).getLsbD 12 = true := by simp [hn]
  simp [h] at hbit

/-! ## Round trips -/

@[simp] theorem dec_enc (i : InstCode) (a : Addr) (k : CtrlCode) : dec (enc i a k) = ⟨i, a, k, classify a⟩ := by
  simp [dec]

theorem enc_decInput {n : Nat} (x : BitVec n) :
    enc (decInput x).inst (decInput x).addr (decInput x).ctrl = wordOfInput x :=
  enc_fields (wordOfInput x)

/-- A word is encoded from the fields it decodes to, so it can be read off them. -/
theorem dec_injective {v w : Word} (h : dec v = dec w) : v = w :=
  calc v = enc (dec v).inst (dec v).addr (dec v).ctrl := (enc_fields v).symm
    _ = enc (dec w).inst (dec w).addr (dec w).ctrl := by rw [h]
    _ = w := enc_fields w

/-- What the encoder puts out, the decoder reads back: the ports have the same width. -/
theorem decInput_encOutput (i : InstCode) (a : Addr) (k : CtrlCode) :
    decInput ((encOutput Config.outW i a k).setWidth Config.inW) = ⟨i, a, k, classify a⟩ := by
  rw [BitVec.setWidth_eq, encOutput, decInput, wordOfInput_setWidth, dec_enc]

/-- Settles O11: the input's word is its low twelve bits, and `enc` and `dec` invert each other on words. -/
theorem wordRoundTrips : Obligations.WordRoundTrips := by
  refine ⟨dec_enc, fun n hn => ⟨fun x => ?_, fun _ _ => dec_injective, fun hlt => ?_⟩⟩
  · intro v
    have hv : v = wordOfInput x := enc_decInput x
    rw [hv]
    exact ⟨wordOfInput_eq_extractLsb' hn x, toNat_wordOfInput x, setWidth_wordOfInput_eq_iff hn x⟩
  · exact ⟨BitVec.twoPow n 12, 0, twoPow_ne_zero hlt, decInput_twoPow hlt⟩

/-! ## The word commands -/

theorem exec_wenc (i : InstCode) (a : Addr) (k : CtrlCode) (s : State) :
    exec (.wenc i a k) s = .next (s.complete (.word (encOutput Config.outW i a k))) := rfl

theorem exec_wdec (x : BitVec Config.inW) (s : State) :
    exec (.wdec x) s = .next (s.complete (.fields (decInput x))) := rfl

theorem exec_acls (a : Addr) (s : State) : exec (.acls a) s = .next (s.complete (.aclass (classify a))) := rfl

@[simp] theorem State.complete_block (r : Response) (s : State) : (s.complete r).block = s.block := rfl

/-- Settles O7. -/
theorem wencResult : Obligations.WencResult :=
  fun i a k s => ⟨rfl, exec_wenc i a k s, fun _ hm => toNat_encOutput hm i a k, rfl, rfl, rfl⟩

/-- Settles O8: the fields are bits 11 to 0 of the input, and only its word is read. -/
theorem wdecResult : Obligations.WdecResult := by
  refine ⟨fun x s => ⟨rfl, ?_⟩, fun x y s hxy => ?_, rfl, rfl⟩
  · rw [exec_wdec, decInput_eq]
    rfl
  · rw [exec_wdec, exec_wdec, decInput_congr hxy]

/-- Settles O9. -/
theorem aclsResult : Obligations.AclsResult :=
  ⟨fun a s => ⟨rfl, exec_acls a s⟩, rfl⟩

/-- Settles O10: WDEC reads back what WENC put out, and the tables are inverted. -/
theorem fieldRoundTrips : Obligations.FieldRoundTrips := by
  refine ⟨fun i a k s => ?_, Opcode.code_ofCode, CtrlVariant.code_ofCode⟩
  refine ⟨_, _, _, exec_wenc i a k s, State.complete_result _ _, exec_wdec _ _, ?_⟩
  rw [State.complete_result, decInput_encOutput]

/-- Settles O12: completing with a response changes the result alone. -/
theorem wordCommandsTouchNoStream : Obligations.WordCommandsTouchNoStream :=
  fun i a k x s => ⟨_, _, _, exec_wenc i a k s, exec_wdec x s, exec_acls a s,
    State.complete_block _ _, State.complete_block _ _, State.complete_block _ _,
    State.complete_input _ _, State.complete_input _ _, State.complete_input _ _⟩

end Sys2Proof.Machine
end

section
/-! SUPPORT. The packer's commands one by one (41_stream_packer.md R105 to R110): each command's rule while a stream is
open, the refusal outside one, and what a RESET drops. -/

namespace Sys2Proof.Machine

open Sys2Proof Host

/-! ## The commands in and outside an open stream -/

section Commands

variable {s : State}

theorem exec_pkWord_active (h : s.pkPhase = .active) (i : InstCode) (a : Addr) (k : CtrlCode) :
    exec (.pkWord i a k) s = .next (s.packWord (enc i a k)) :=
  requirePacking_active h _

theorem exec_pkComment_active (h : s.pkPhase = .active) : exec .pkComment s = .next (s.complete .none) :=
  requirePacking_active h _

theorem exec_pkFlush_active (h : s.pkPhase = .active) : exec .pkFlush s = .next s.flushPacker :=
  requirePacking_active h _

/-- Outside a stream every command that needs one is refused (60_exceptions.md R133). -/
theorem exec_packing_closed {i : Instr} (hneeds : needsPacking i = true) (h : s.pkPhase ≠ .active) :
    exec i s = .next (s.refuse .noOpenStream) := by
  cases i
  case pkWord | pkComment | pkFlush => exact requirePacking_closed h _
  all_goals cases hneeds

/-- A RESET issued ahead of the rest is performed in every state (70_reset_and_hazards.md R146). -/
theorem step_issueNext_of_rst {q : Request} (hrst : q.rst = true) (s : State) :
    step (s.issueNext q) = .next s.applyReset := by
  simp only [step, fetch_of_issued (s.issueNext_input q), hrst, if_true]
  rfl

end Commands

/-- Settles O18. -/
theorem pkStartResult : Obligations.PkStartResult :=
  ⟨rfl, exec_pkStart⟩

/-- Settles O19: the guard, then the packer's move at each offset. -/
theorem pkWordResult : Obligations.PkWordResult := by
  refine fun i a k s => ⟨rfl, fun hactive hzero => ?_, fun hactive hfour => ?_, exec_packing_closed rfl⟩
  · rw [exec_pkWord_active hactive, packWord_at_zero hzero]
    rfl
  · rw [exec_pkWord_active hactive, packWord_at_four hfour]
    rfl

/-- Settles O21: the guard, then the flush at each offset. -/
theorem pkFlushResult : Obligations.PkFlushResult := by
  refine ⟨rfl, fun s => ⟨fun hactive hzero => ?_, fun hactive hfour => ?_, exec_packing_closed rfl⟩⟩
  · rw [exec_pkFlush_active hactive, flushPacker_at_zero hzero]
    rfl
  · rw [exec_pkFlush_active hactive, flushPacker_at_four hfour]
    rfl

/-- Settles O23: a word packed at offset 0 leaves offset 4, where a flush emits the held nibble. -/
theorem heldNibbleNeedsFlush : Obligations.HeldNibbleNeedsFlush := by
  intro i a k s hactive hzero
  have hopen : (s.packWord (enc i a k)).pkPhase = .active := (s.packWord_pkPhase _).trans hactive
  refine ⟨_, _, _, exec_pkWord_active hactive i a k, ?_, ?_, exec_pkFlush_active hopen, ?_,
    exec_pkStart _, rfl, rfl, rfl,
    fun q hrst => ⟨_, step_issueNext_of_rst (q := .ports q) hrst _, rfl, rfl, rfl, rfl⟩⟩
  · rw [packWord_at_zero hzero]
    rfl
  · rw [packWord_at_zero hzero]
  · rw [packWord_at_zero hzero]
    rfl

end Sys2Proof.Machine
end

section
/-! SUPPORT. Comments in a packing stream (41_stream_packer.md R109, R114): no instruction reads the result of the command
before it, so a PK_COMMENT, which writes nothing else, leaves the run after it as it would be. -/

namespace Sys2Proof.Machine

open Sys2Proof Host

/-! ## The result of the last command is not read -/

theorem requirePacking_complete (r : Response) (s : State) {body : State → State}
    (hbody : body (s.complete r) = body s) : requirePacking (s.complete r) body = requirePacking s body := by
  simp only [requirePacking, State.complete_pkPhase, hbody]
  rfl

theorem requireUnpacking_complete (r : Response) (s : State) {body : State → State}
    (hbody : body (s.complete r) = body s) :
    requireUnpacking (s.complete r) body = requireUnpacking s body := by
  simp only [requireUnpacking, State.complete_upPhase, hbody]
  rfl

theorem packWord_complete (v : Word) (r : Response) (s : State) :
    (s.complete r).packWord v = s.packWord v := by
  cases h : s.pkOfs with
  | zero => rw [packWord_at_zero h, packWord_at_zero (s := s.complete r) h]; rfl
  | four => rw [packWord_at_four h, packWord_at_four (s := s.complete r) h]; rfl

theorem flushPacker_complete (r : Response) (s : State) : (s.complete r).flushPacker = s.flushPacker := by
  cases h : s.pkOfs with
  | zero => rw [flushPacker_at_zero h, flushPacker_at_zero (s := s.complete r) h]; rfl
  | four => rw [flushPacker_at_four h, flushPacker_at_four (s := s.complete r) h]; rfl

theorem unpackByte_complete (b : Byte) (r : Response) (s : State) :
    (s.complete r).unpackByte b = s.unpackByte b := by
  cases h : s.upN with
  | zero => rw [unpackByte_at_zero h, unpackByte_at_zero (s := s.complete r) h]; rfl
  | eight => rw [unpackByte_at_eight h, unpackByte_at_eight (s := s.complete r) h]; rfl
  | four => rw [unpackByte_at_four h, unpackByte_at_four (s := s.complete r) h]; rfl

/-- Every instruction writes its own result over the last one and reads nothing of it. -/
theorem exec_complete (i : Instr) (r : Response) (s : State) : exec i (s.complete r) = exec i s := by
  rcases exec_cases i with ⟨r', hexec, -⟩ | rfl | ⟨c, a, k, rfl⟩ | rfl | rfl | rfl | ⟨b, rfl⟩ | rfl
  · rw [hexec, hexec]
    rfl
  · rfl
  · exact requirePacking_complete r s (packWord_complete _ r s)
  · exact requirePacking_complete r s rfl
  · exact requirePacking_complete r s (flushPacker_complete r s)
  · rfl
  · exact requireUnpacking_complete r s (unpackByte_complete b r s)
  · exact requireUnpacking_complete r s rfl

theorem runCommands_cons_complete (i : Instr) (cs : List Instr) (r : Response) (s : State) :
    runCommands (i :: cs) (s.complete r) = runCommands (i :: cs) s := by
  simp only [runCommands, exec_complete]

/-- No run stops. -/
theorem runCommands_some (cs : List Instr) (s : State) : ∃ rs t, runCommands cs s = some (rs, t) := by
  induction cs generalizing s with
  | nil => exact ⟨[], s, rfl⟩
  | cons i cs ih =>
    obtain ⟨t, h⟩ := exec_next i s
    obtain ⟨rs, u, hrun⟩ := ih t
    exact ⟨t.result :: rs, u, by rw [runCommands_cons h, hrun, Option.map_some]⟩

/-- The result of the command before it shows after a run only if the run is empty. -/
theorem runCommands_complete (cs : List Instr) (r : Response) (s : State) :
    ∃ rs t t', runCommands cs (s.complete r) = some (rs, t) ∧ runCommands cs s = some (rs, t') ∧
      t.block = t'.block := by
  cases cs with
  | nil => exact ⟨[], _, _, rfl, rfl, State.complete_block r s⟩
  | cons i cs =>
    obtain ⟨rs, t, hrun⟩ := runCommands_some (i :: cs) s
    exact ⟨rs, t, t, (runCommands_cons_complete i cs r s).trans hrun, hrun, rfl⟩

/-! ## Comments before any commands -/

theorem runCommands_comment {s : State} (hactive : s.pkPhase = .active) (cs : List Instr) :
    runCommands (.pkComment :: cs) s =
      (runCommands cs (s.complete .none)).map (fun p => (.completed .none :: p.1, p.2)) :=
  runCommands_cons (exec_pkComment_active hactive) cs

/-- Any number of comments before any commands of an open stream leave the output and the block as they would be. -/
theorem runCommands_comments (n : Nat) (cs : List Instr) {s : State} (hactive : s.pkPhase = .active) :
    ∃ rs t rs' t', runCommands (List.replicate n .pkComment ++ cs) s = some (rs, t) ∧
      runCommands cs s = some (rs', t') ∧ packOutput rs = packOutput rs' ∧ t.block = t'.block := by
  induction n generalizing s with
  | zero =>
    obtain ⟨rs, t, hrun⟩ := runCommands_some cs s
    exact ⟨rs, t, rs, t, hrun, hrun, rfl, rfl⟩
  | succ n ih =>
    obtain ⟨rs, t, rs', t', hrun, hrun', hout, hblock⟩ := ih (s := s.complete .none) hactive
    obtain ⟨rs'', u, u', hbare, hbare', hsame⟩ := runCommands_complete cs .none s
    obtain ⟨rfl, rfl⟩ := Prod.mk.inj (Option.some.inj (hrun'.symm.trans hbare))
    refine ⟨.completed .none :: rs, t, rs', u', ?_, hbare', hout, hblock.trans hsame⟩
    rw [List.replicate_succ, List.cons_append, runCommands_comment hactive, hrun, Option.map_some]

/-- Settles O20. -/
theorem pkCommentResult : Obligations.PkCommentResult :=
  ⟨rfl, fun _ => ⟨exec_pkComment_active, exec_packing_closed rfl,
    fun hactive n cs => runCommands_comments n cs hactive, _, _, rfl, rfl⟩⟩

/-! ## Comment nodes in a stream -/

/-- The results that carry anything: all but those of PK_START and PK_COMMENT. -/
def carrying (rs : List CommandResult) : List CommandResult :=
  rs.filter (fun r => decide (r ≠ .completed .none))

theorem carrying_cons_none (rs : List CommandResult) : carrying (.completed .none :: rs) = carrying rs :=
  List.filter_cons_of_neg (by simp)

theorem carrying_cons_congr (r : CommandResult) {rs rs' : List CommandResult} (h : carrying rs = carrying rs') :
    carrying (r :: rs) = carrying (r :: rs') := by
  simp only [carrying, List.filter_cons] at h ⊢
  rw [h]

theorem packOutput_carrying (rs : List CommandResult) : packOutput (carrying rs) = packOutput rs := by
  induction rs with
  | nil => rfl
  | cons r rs ih =>
    by_cases hr : r = .completed .none
    · subst hr
      rw [carrying_cons_none, packOutput_cons, ih]
      rfl
    · have hkeep : carrying (r :: rs) = r :: carrying rs := List.filter_cons_of_pos (by simp [hr])
      rw [hkeep, packOutput_cons, packOutput_cons, ih]

/-- The rest of an open stream that packs `ns` and ends. -/
def packRest (ns : List Node) : List Instr := ns.map packNode ++ [.pkFlush]

theorem packRest_cons (n : Node) (ns : List Node) : packRest (n :: ns) = packNode n :: packRest ns := rfl

/-- The stream of `ns` is PK_START, then the rest. -/
theorem runCommands_packCommands (ns : List Node) (s : State) :
    runCommands (packCommands ns) s =
      (runCommands (packRest ns) (s.openPacker.complete .none)).map (fun p => (.completed .none :: p.1, p.2)) :=
  runCommands_cons (exec_pkStart s) _

theorem runCommands_packRest_nil {s : State} (hactive : s.pkPhase = .active) :
    runCommands (packRest []) s = some ([s.flushPacker.result], s.flushPacker) :=
  runCommands_cons (exec_pkFlush_active hactive) []

theorem runCommands_packRest_word {s : State} (hactive : s.pkPhase = .active) (i : InstCode) (a : Addr)
    (k : CtrlCode) (ns : List Node) :
    runCommands (packRest (.word i a k :: ns)) s =
      (runCommands (packRest ns) (s.packWord (enc i a k))).map
        (fun p => ((s.packWord (enc i a k)).result :: p.1, p.2)) :=
  runCommands_cons (exec_pkWord_active hactive i a k) _

/-- A Comment node adds one empty response: the rest has a command, its flush if no other, and that command does not
read the comment's result. -/
theorem runCommands_packRest_comment {s : State} (hactive : s.pkPhase = .active) (c : List Char)
    (ns : List Node) :
    runCommands (packRest (.comment c :: ns)) s =
      (runCommands (packRest ns) s).map (fun p => (.completed .none :: p.1, p.2)) := by
  rw [packRest_cons, packNode, runCommands_comment hactive]
  cases ns with
  | nil => rw [packRest, List.map_nil, List.nil_append, runCommands_cons_complete]
  | cons n ns => rw [packRest_cons, runCommands_cons_complete]

/-- Without the nodes that `p` drops, the rest of an open stream ends in the same state, and its results that carry
anything are the same, when `p` keeps the Word nodes and drops the Comment nodes. -/
theorem runCommands_packRest_filter {p : Node → Bool} (hword : ∀ i a k, p (.word i a k) = true)
    (hcomment : ∀ c, p (.comment c) = false) (ns : List Node) {s : State} (hactive : s.pkPhase = .active) :
    ∃ rs rs' t, runCommands (packRest ns) s = some (rs, t) ∧
      runCommands (packRest (ns.filter p)) s = some (rs', t) ∧ carrying rs = carrying rs' := by
  induction ns generalizing s with
  | nil => exact ⟨_, _, _, runCommands_packRest_nil hactive, runCommands_packRest_nil hactive, rfl⟩
  | cons n ns ih =>
    cases n with
    | word i a k =>
      obtain ⟨rs, rs', t, hrun, hrun', hsame⟩ := ih ((s.packWord_pkPhase (enc i a k)).trans hactive)
      refine ⟨_, _, t, ?_, ?_, carrying_cons_congr (s.packWord (enc i a k)).result hsame⟩
      · rw [runCommands_packRest_word hactive, hrun, Option.map_some]
      · rw [List.filter_cons_of_pos (hword i a k), runCommands_packRest_word hactive, hrun', Option.map_some]
    | comment c =>
      obtain ⟨rs, rs', t, hrun, hrun', hsame⟩ := ih hactive
      refine ⟨_, rs', t, ?_, ?_, (carrying_cons_none rs).trans hsame⟩
      · rw [runCommands_packRest_comment hactive, hrun, Option.map_some]
      · rwa [List.filter_cons_of_neg (by simp [hcomment])]

/-- The streams with and without their Comment nodes: the results that carry anything agree, so the output does. -/
theorem runCommands_packCommands_filter {p : Node → Bool} (hword : ∀ i a k, p (.word i a k) = true)
    (hcomment : ∀ c, p (.comment c) = false) (ns : List Node) (s : State) :
    ∃ rs rs' t, runCommands (packCommands ns) s = some (rs, t) ∧
      runCommands (packCommands (ns.filter p)) s = some (rs', t) ∧
      packOutput rs = packOutput rs' ∧ carrying rs = carrying rs' := by
  obtain ⟨rs, rs', t, hrun, hrun', hsame⟩ :=
    runCommands_packRest_filter hword hcomment ns (s := s.openPacker.complete .none) rfl
  have hall := carrying_cons_congr (.completed .none) hsame
  refine ⟨.completed .none :: rs, .completed .none :: rs', t, ?_, ?_, ?_, hall⟩
  · rw [runCommands_packCommands, hrun, Option.map_some]
  · rw [runCommands_packCommands, hrun', Option.map_some]
  · rw [← packOutput_carrying, hall, packOutput_carrying]

/-- Settles O38. -/
theorem commentsInvisible : Obligations.CommentsInvisible :=
  runCommands_packCommands_filter (fun _ _ _ => rfl) (fun _ => rfl)

end Sys2Proof.Machine
end

section
/-! SUPPORT. The packer against the bits of its words (41_stream_packer.md R106, R108, R112, R116): what each command does
to the bits sent and held, and from that the output of a whole stream. -/

namespace Sys2Proof.Machine

open Sys2Proof Host

/-! ## Bits and bytes -/

theorem bitsOf_append {m n : Nat} (x : BitVec m) (y : BitVec n) : bitsOf (x ++ y) = bitsOf x ++ bitsOf y := by
  refine List.ext_getElem (by simp) fun i _ _ => ?_
  by_cases hi : i < m
  · simp [bitsOf, BitVec.getMsbD_append, hi, Nat.not_le.mpr hi]
  · simp [bitsOf, BitVec.getMsbD_append, Nat.not_lt.mp hi]

theorem bitsOf_nibbles (x y : BitVec 4) : bitsOf (x ++ y : Byte) = bitsOf x ++ bitsOf y := bitsOf_append x y

/-- A value's bits are those of its upper part, then those of its lower part, cut at any place. -/
theorem bitsOf_cut {w m n : Nat} (v : BitVec w) (hw : w = m + n) :
    bitsOf v = bitsOf (v.extractLsb' n m) ++ bitsOf (v.extractLsb' 0 n) := by
  subst hw
  rw [← bitsOf_append, BitVec.extractLsb'_append_extractLsb'_eq_extractLsb' (Nat.zero_add n).symm,
    BitVec.extractLsb'_eq_self]

theorem bitsOf_injective {n : Nat} {v w : BitVec n} (h : bitsOf v = bitsOf w) : v = w := by
  refine BitVec.eq_of_getMsbD_eq fun i hi => Option.some.inj ?_
  rw [← getElem?_bitsOf v hi, h, getElem?_bitsOf w hi]

/-- The bits of a value spell it. -/
theorem ofNat_valueOfBits_bitsOf {n : Nat} (v : BitVec n) : BitVec.ofNat n (valueOfBits (bitsOf v)) = v := by
  have h := bitsOf_valueOfBits (bitsOf v)
  rw [length_bitsOf] at h
  exact bitsOf_injective h

theorem bytesOfBits_bitsOf_append (b : Byte) (l : List Bool) :
    bytesOfBits (bitsOf b ++ l) = b :: bytesOfBits l :=
  congrArg (· :: bytesOfBits l) (ofNat_valueOfBits_bitsOf b)

theorem bytesOfBits_of_length_lt {l : List Bool} (h : l.length < 8) : bytesOfBits l = [] := by
  have hbits : 8 * (bytesOfBits l).length = 0 := by
    rw [← length_flatMap_bitsOf, ← bitStream, bitStream_bytesOfBits, Nat.div_eq_of_lt h]
    rfl
  exact List.length_eq_zero_iff.mp (by omega)

/-- Fewer than 8 bits after whole bytes are dropped. -/
theorem bytesOfBits_bitStream_append (bs : List Byte) {l : List Bool} (h : l.length < 8) :
    bytesOfBits (bitStream bs ++ l) = bs := by
  induction bs with
  | nil => exact bytesOfBits_of_length_lt h
  | cons b bs ih =>
    rw [bitStream, List.flatMap_cons, List.append_assoc, bytesOfBits_bitsOf_append, ← bitStream, ih]

theorem bytesOfBits_bitStream (bs : List Byte) : bytesOfBits (bitStream bs) = bs := by
  simpa using bytesOfBits_bitStream_append bs (l := []) (by decide)

@[simp] theorem bitStream_append (bs cs : List Byte) : bitStream (bs ++ cs) = bitStream bs ++ bitStream cs :=
  List.flatMap_append

/-! ## The bits that a command sends and holds -/

theorem length_pkHeld (s : State) : s.pkHeld.length = s.pkOfs.bits := by
  unfold State.pkHeld
  split <;> rename_i h <;> simp [h, PkOfs.bits]

theorem PkOfs.bits_le (o : PkOfs) : o.bits ≤ 4 := by
  cases o <;> decide

theorem packWord_result (v : Word) (s : State) :
    (s.packWord v).result = .completed (.bytes (s.packWord v).result.bytesOut) := by
  unfold State.packWord; split <;> rfl

/-- The word's bits go out after those held before, up to the new held bits. -/
theorem packWord_bits (v : Word) (s : State) :
    bitStream (s.packWord v).result.bytesOut ++ (s.packWord v).pkHeld = s.pkHeld ++ bitsOf v := by
  cases h : s.pkOfs with
  | zero =>
    rw [packWord_at_zero h, bitsOf_cut v (m := 8) (n := 4) rfl]
    simp [State.pkHeld, h, CommandResult.bytesOut, bitStream]
  | four =>
    rw [packWord_at_four h, bitsOf_cut v (m := 4) (n := 8) rfl]
    simp [State.pkHeld, h, CommandResult.bytesOut, bitStream, bitsOf_nibbles]

theorem packWord_pkNbytes (v : Word) (s : State) :
    (s.packWord v).pkNbytes = s.pkNbytes + (s.packWord v).result.bytesOut.length := by
  unfold State.packWord; split <;> rfl

/-- The held bits go out, as many zero bits after them. -/
theorem flushPacker_bits (s : State) :
    bitStream s.flushPacker.result.bytesOut = s.pkHeld ++ List.replicate s.pkOfs.bits false := by
  cases h : s.pkOfs with
  | zero =>
    rw [flushPacker_at_zero h]
    simp [State.pkHeld, h, CommandResult.bytesOut, bitStream, PkOfs.bits]
  | four =>
    rw [flushPacker_at_four h]
    simp [State.pkHeld, h, CommandResult.bytesOut, bitStream, PkOfs.bits, bitsOf_nibbles]
    rfl

theorem flushPacker_pkNbytes (s : State) :
    s.flushPacker.pkNbytes = s.pkNbytes + s.flushPacker.result.bytesOut.length := by
  unfold State.flushPacker; split <;> rfl

/-! ## The general offset tracking -/

/-- Whole bytes and fewer than 8 bits more are what the general form emits and keeps. -/
theorem generalPack_eq {held rest : List Bool} {v : Word} {bs : List Byte}
    (hbits : bitStream bs ++ rest = held ++ bitsOf v) (hrest : rest.length < 8) :
    generalPack held v = (bs, rest) := by
  have hlen : 8 * ((bitStream bs ++ rest).length / 8) = (bitStream bs).length := by
    rw [List.length_append, bitStream, length_flatMap_bitsOf]
    omega
  rw [generalPack, ← hbits]
  simp only [bytesOfBits_bitStream_append bs hrest, hlen, List.drop_left]

/-- Settles O22. -/
theorem packerIsGeneralOffsetTracking : Obligations.PackerIsGeneralOffsetTracking := by
  intro i a k s hactive
  have hshort : (s.packWord (enc i a k)).pkHeld.length < 8 := by
    rw [length_pkHeld]
    exact Nat.lt_of_le_of_lt (PkOfs.bits_le _) (by decide)
  refine ⟨_, exec_pkWord_active hactive i a k, ?_⟩
  rw [generalPack_eq (packWord_bits (enc i a k) s) hshort]
  exact ⟨packWord_result _ s, rfl, (length_pkHeld _).symm, hshort⟩

/-! ## A whole stream -/

/-- How an open stream at `s` has ended at `t` when it packed the words `ws` more and delivered the bytes `bs` more:
the held bits and the words' bits have gone out, filled up with zero bits to whole bytes, and the counters have
counted them. -/
structure StreamEnds (s : State) (ws : List Word) (bs : List Byte) (t : State) : Prop where
  ended : t.packingEnded
  bits : ∃ pad < 8, bitStream bs = s.pkHeld ++ ws.flatMap bitsOf ++ List.replicate pad false
  cnt : t.pkCnt = s.pkCnt + ws.length
  nbytes : t.pkNbytes = s.pkNbytes + bs.length
  refused : t.refused = s.refused

theorem streamEnds_flush (s : State) : StreamEnds s [] s.flushPacker.result.bytesOut s.flushPacker where
  ended := s.flushPacker_pkPhase
  bits := ⟨s.pkOfs.bits, Nat.lt_of_le_of_lt (PkOfs.bits_le _) (by decide), by
    rw [flushPacker_bits, List.flatMap_nil, List.append_nil]⟩
  cnt := s.flushPacker_pkCnt
  nbytes := flushPacker_pkNbytes s
  refused := s.flushPacker_refused

theorem StreamEnds.of_packWord {s t : State} {v : Word} {ws : List Word} {bs : List Byte}
    (h : StreamEnds (s.packWord v) ws bs t) :
    StreamEnds s (v :: ws) ((s.packWord v).result.bytesOut ++ bs) t where
  ended := h.ended
  bits := by
    obtain ⟨pad, hpad, hbits⟩ := h.bits
    refine ⟨pad, hpad, ?_⟩
    rw [bitStream_append, hbits, ← List.append_assoc, ← List.append_assoc, packWord_bits, List.flatMap_cons,
      List.append_assoc s.pkHeld]
  cnt := by rw [h.cnt, State.packWord_pkCnt, List.length_cons, Nat.add_assoc, Nat.add_comm 1]
  nbytes := by rw [h.nbytes, packWord_pkNbytes, List.length_append, Nat.add_assoc]
  refused := h.refused.trans (s.packWord_refused v)

theorem runCommands_packRest (ns : List Node) {s : State} (hactive : s.pkPhase = .active) :
    ∃ rs t, runCommands (packRest ns) s = some (rs, t) ∧
      StreamEnds s (wordsOfNodes ns) (packOutput rs) t := by
  induction ns generalizing s with
  | nil =>
    refine ⟨_, _, runCommands_packRest_nil hactive, ?_⟩
    rw [packOutput_cons, packOutput_nil, List.append_nil]
    exact streamEnds_flush s
  | cons n ns ih =>
    cases n with
    | word i a k =>
      obtain ⟨rs, t, hrun, hends⟩ := ih ((s.packWord_pkPhase (enc i a k)).trans hactive)
      exact ⟨_ :: rs, t, by rw [runCommands_packRest_word hactive, hrun, Option.map_some], hends.of_packWord⟩
    | comment c =>
      obtain ⟨rs, t, hrun, hends⟩ := ih hactive
      exact ⟨.completed .none :: rs, t, by rw [runCommands_packRest_comment hactive, hrun, Option.map_some], hends⟩

/-- From a fresh stream the bytes are the words' bits with the pad of R106, since only one pad below 8 bits fills the
last byte. -/
theorem StreamEnds.encodeWords_eq {s t : State} {ws : List Word} {bs : List Byte}
    (h : StreamEnds s ws bs t) (hfresh : s.pkHeld = []) : bs = encodeWords ws := by
  obtain ⟨pad, hpad, hbits⟩ := h.bits
  rw [hfresh, List.nil_append] at hbits
  have hlen : 8 * bs.length = 12 * ws.length + pad := by
    rw [← length_flatMap_bitsOf bs, ← bitStream, hbits, List.length_append, length_flatMap_bitsOf,
      List.length_replicate]
  have hpadBits : pad = padBits ws.length := by
    unfold padBits
    omega
  rw [encodeWords, ← hpadBits, ← hbits, bytesOfBits_bitStream]

/-- A packing stream ends with the encoded words as its output. -/
theorem runCommands_packCommands_ends (ns : List Node) (s : State) :
    ∃ rs t, runCommands (packCommands ns) s = some (rs, t) ∧ packOutput rs = encodeStream ns ∧
      StreamEnds (s.openPacker.complete .none) (wordsOfNodes ns) (packOutput rs) t := by
  obtain ⟨rs, t, hrun, hends⟩ := runCommands_packRest ns (s := s.openPacker.complete .none) rfl
  exact ⟨.completed .none :: rs, t, by rw [runCommands_packCommands, hrun, Option.map_some],
    hends.encodeWords_eq rfl, hends⟩

/-- Settles O31. -/
theorem packingAgreesWithSource : Obligations.PackingAgreesWithSource := by
  intro ns s
  obtain ⟨rs, t, hrun, hout, hends⟩ := runCommands_packCommands_ends ns s
  exact ⟨rs, t, hrun, hout, hends.ended, hends.refused⟩

/-- Settles O33: the length is that of the encoded words (R40), and a fresh stream counts from 0. -/
theorem packedLength : Obligations.PackedLength := by
  intro ns s
  obtain ⟨rs, t, hrun, hout, hends⟩ := runCommands_packCommands_ends ns s
  have hlen : (packOutput rs).length = (12 * (wordsOfNodes ns).length + 7) / 8 := by
    rw [hout]
    exact (endPadIsZero.1 (wordsOfNodes ns)).1
  refine ⟨rs, t, hrun, hlen, fun _ => by omega, fun _ => by omega, ?_, ?_⟩
  · exact hends.nbytes.trans (Nat.zero_add _)
  · exact hends.cnt.trans (Nat.zero_add _)

end Sys2Proof.Machine
end

section
/-! SUPPORT. The unpacker's commands one by one (42_stream_unpacker.md R119 to R123): each command's rule while a stream
is open, the refusal outside one, and the width of the residue. -/

namespace Sys2Proof.Machine

open Sys2Proof Host

/-! ## The commands in and outside an open stream -/

section Commands

variable {s : State}

theorem exec_upByte_active (h : s.upPhase = .active) (b : Byte) : exec (.upByte b) s = .next (s.unpackByte b) :=
  requireUnpacking_active h _

theorem exec_upEnd_active (h : s.upPhase = .active) : exec .upEnd s = .next s.endUnpacker :=
  requireUnpacking_active h _

/-- Outside a stream every command that needs one is refused (60_exceptions.md R133). -/
theorem exec_unpacking_closed {i : Instr} (hneeds : needsUnpacking i = true) (h : s.upPhase ≠ .active) :
    exec i s = .next (s.refuse .noOpenStream) := by
  cases i
  case upByte | upEnd => exact requireUnpacking_closed h _
  all_goals cases hneeds

/-- Three bytes are two words, so the byte count modulo 3 gives the bits left over (R28). -/
theorem upN_bits_of_unpackerInv (hactive : s.upPhase = .active) (hinv : s.UnpackerInv) :
    s.upN.bits = if s.upNbytes % 3 = 0 then 0 else if s.upNbytes % 3 = 1 then 8 else 4 := by
  obtain ⟨hbits, -⟩ := (unpackerInv_of_active hactive).mp hinv
  cases hn : s.upN <;> simp only [hn, UpN.bits] at hbits ⊢ <;> split_ifs <;> omega

/-- A byte completes a word unless nothing is held before it. -/
theorem unpackByte_wordsOut_length (b : Byte) (s : State) :
    (s.unpackByte b).result.wordsOut.length = if s.upN.bits = 0 then 0 else 1 := by
  cases hn : s.upN with
  | zero => rw [unpackByte_at_zero hn]; rfl
  | four => rw [unpackByte_at_four hn]; rfl
  | eight => rw [unpackByte_at_eight hn]; rfl

end Commands

/-- Settles O24. -/
theorem upStartResult : Obligations.UpStartResult :=
  ⟨rfl, exec_upStart⟩

/-- Settles O25: the guard, then the unpacker's move at each offset; nothing is held just when the byte count is a
multiple of 3. -/
theorem upByteResult : Obligations.UpByteResult := by
  refine fun b s => ⟨rfl, fun hactive hn => ?_, fun hactive hn => ?_, fun hactive hn => ?_,
    exec_unpacking_closed rfl, fun hactive hinv => ⟨_, exec_upByte_active hactive b, ?_⟩⟩
  · rw [exec_upByte_active hactive, unpackByte_at_zero hn]
  · rw [exec_upByte_active hactive, unpackByte_at_eight hn]
  · rw [exec_upByte_active hactive, unpackByte_at_four hn]
    rfl
  · rw [unpackByte_wordsOut_length, upN_bits_of_unpackerInv hactive hinv]
    split_ifs <;> omega

/-- Settles O26. -/
theorem upEndResult : Obligations.UpEndResult :=
  ⟨rfl, fun _ => ⟨exec_upEnd_active, exec_unpacking_closed rfl, upN_bits_of_unpackerInv⟩⟩

end Sys2Proof.Machine
end

section
/-! SUPPORT. The words of a byte sequence (42_stream_unpacker.md R120): every bit string is whole groups of one width
and a shorter remainder, and the source decodes the whole words of the bit stream. -/

namespace Sys2Proof.Machine

open Sys2Proof Host

/-! ## Whole groups and a remainder -/

theorem exists_bitsOf_append {n : Nat} {l : List Bool} (h : n ≤ l.length) :
    ∃ v : BitVec n, l = bitsOf v ++ l.drop n := by
  have hlen : (l.take n).length = n := List.length_take_of_le h
  have hbits := bitsOf_valueOfBits (l.take n)
  rw [hlen] at hbits
  exact ⟨_, by rw [hbits, List.take_append_drop]⟩

/-- Groups of `n` bits are cut off the front as long as `n` bits are left. -/
theorem exists_groups {n : Nat} (hn : 0 < n) (l : List Bool) :
    ∃ (vs : List (BitVec n)) (rest : List Bool), l = vs.flatMap bitsOf ++ rest ∧ rest.length < n := by
  induction hlen : l.length using Nat.strong_induction_on generalizing l with
  | _ k ih =>
    subst hlen
    by_cases hl : l.length < n
    · exact ⟨[], l, rfl, hl⟩
    · obtain ⟨v, hv⟩ := exists_bitsOf_append (Nat.le_of_not_lt hl)
      obtain ⟨vs, rest, hvs, hrest⟩ := ih _ (by rw [List.length_drop]; omega) (l.drop n) rfl
      exact ⟨v :: vs, rest, by rw [List.flatMap_cons, List.append_assoc, ← hvs, ← hv], hrest⟩

/-! ## Whole words -/

theorem wordsOfBits_bitsOf_append (v : Word) (l : List Bool) :
    wordsOfBits (bitsOf v ++ l) = v :: wordsOfBits l :=
  congrArg (· :: wordsOfBits l) (ofNat_valueOfBits_bitsOf v)

theorem wordsOfBits_of_length_lt {l : List Bool} (h : l.length < 12) : wordsOfBits l = [] := by
  refine wordsOfBits.eq_2 l ?_
  rintro _ _ _ _ _ _ _ _ _ _ _ _ rest rfl
  simp only [List.length_cons] at h
  omega

/-- Fewer than 12 bits after whole words are dropped. -/
theorem wordsOfBits_append (ws : List Word) {rest : List Bool} (h : rest.length < 12) :
    wordsOfBits (ws.flatMap bitsOf ++ rest) = ws := by
  induction ws with
  | nil => exact wordsOfBits_of_length_lt h
  | cons w ws ih => rw [List.flatMap_cons, List.append_assoc, wordsOfBits_bitsOf_append, ih]

/-! ## The source's decoder -/

section Decode

variable {bs : List Byte} {ws : List Word} {rest : List Bool}

theorem decodeStream_eq (hbits : bitStream bs = ws.flatMap bitsOf ++ rest) (hrest : rest.length < 12) :
    decodeStream bs = ws.map dec := by
  rw [decodeStream, hbits, wordsOfBits_append ws hrest]

theorem length_of_bitStream_eq (hbits : bitStream bs = ws.flatMap bitsOf ++ rest) :
    8 * bs.length = 12 * ws.length + rest.length := by
  rw [← length_flatMap_bitsOf bs, ← bitStream, hbits, List.length_append, length_flatMap_bitsOf]

/-- R35's numbering finds the bits of word `j` at its place. -/
theorem streamBit_of_bitStream_eq (hbits : bitStream bs = ws.flatMap bitsOf ++ rest) {j i : Nat} {w : Word}
    (hw : ws[j]? = some w) (hi : i < 12) : streamBit bs (12 * j + i) = some (w.getLsbD (11 - i)) := by
  obtain ⟨hj, -⟩ := List.getElem?_eq_some_iff.mp hw
  have hbefore : 12 * j + i < (ws.flatMap bitsOf).length := by rw [length_flatMap_bitsOf]; omega
  rw [streamBit_eq_getElem?, hbits, List.getElem?_append_left hbefore, getElem?_flatMap_bitsOf ws j hi, hw,
    Option.map_some, getMsbD_eq_getLsbD_of_lt w hi]

end Decode

/-- Settles O30: the bit stream is whole words and fewer than 12 bits more. -/
theorem decodeStreamWords : Obligations.DecodeStreamWords := by
  intro bs
  obtain ⟨ws, rest, hbits, hrest⟩ := exists_groups (n := 12) (by decide) (bitStream bs)
  have hlen : 8 * bs.length / 12 = ws.length := by
    have := length_of_bitStream_eq hbits
    omega
  rw [decodeStream_eq hbits hrest, List.length_map, hlen]
  refine ⟨rfl, fun j hj => ?_⟩
  have hw : ws[j]? = some ws[j] := List.getElem?_eq_getElem hj
  exact ⟨ws[j], by rw [List.getElem?_map, hw, Option.map_some],
    fun i hi => streamBit_of_bitStream_eq hbits hw hi⟩

end Sys2Proof.Machine
end

section
/-! SUPPORT. The unpacker against the bits of its bytes (42_stream_unpacker.md R120, R122, R125, R126, R131): what each
command does to the bits received and held, and from that the words of a whole stream. -/

namespace Sys2Proof.Machine

open Sys2Proof Host

/-! ## The bits that the unpacker holds -/

theorem UpN.bits_le (n : UpN) : n.bits ≤ 8 := by
  cases n <;> decide

theorem length_upHeld (s : State) : s.upHeld.length = s.upN.bits := by
  have hle := UpN.bits_le s.upN
  rw [State.upHeld, List.length_drop, length_bitsOf]
  omega

theorem upHeld_at_zero {s : State} (h : s.upN = .zero) : s.upHeld = [] := by
  rw [← List.length_eq_zero_iff, length_upHeld, h]
  rfl

theorem upHeld_at_eight {s : State} (h : s.upN = .eight) : s.upHeld = bitsOf s.upAcc := by
  rw [State.upHeld, h]
  rfl

theorem upHeld_at_four {s : State} (h : s.upN = .four) : s.upHeld = bitsOf (s.upAcc.extractLsb' 0 4) := by
  rw [State.upHeld, h, bitsOf_cut s.upAcc (m := 4) (n := 4) rfl]
  exact List.drop_left' (length_bitsOf _)

/-! ## What a byte does to them -/

/-- The words a byte completes, decoded, are its response; their bits and the new held bits are the held bits and the
byte's bits. -/
theorem unpackByte_bits (b : Byte) (s : State) :
    ∃ ws : List Word, (s.unpackByte b).result = .completed (.words (ws.map dec)) ∧
      ws.flatMap bitsOf ++ (s.unpackByte b).upHeld = s.upHeld ++ bitsOf b ∧
      (s.unpackByte b).upCnt = s.upCnt + ws.length := by
  cases h : s.upN with
  | zero =>
    rw [unpackByte_at_zero h, upHeld_at_zero h, upHeld_at_eight rfl]
    exact ⟨[], rfl, rfl, rfl⟩
  | eight =>
    refine ⟨[s.upAcc ++ b.extractLsb' 4 4], ?_⟩
    rw [unpackByte_at_eight h, upHeld_at_eight h, upHeld_at_four rfl]
    refine ⟨rfl, ?_, rfl⟩
    rw [BitVec.extractLsb'_setWidth_of_le (by decide), BitVec.extractLsb'_eq_self, List.flatMap_singleton,
      bitsOf_append, List.append_assoc, ← bitsOf_cut b rfl]
  | four =>
    refine ⟨[s.upAcc.extractLsb' 0 4 ++ b], ?_⟩
    rw [unpackByte_at_four h, upHeld_at_four h, upHeld_at_zero rfl]
    refine ⟨rfl, ?_, rfl⟩
    rw [List.flatMap_singleton, bitsOf_append, List.append_nil]

/-- The new accumulator holds nothing above its held bits, whatever it held before. -/
theorem unpackByte_upAcc_lt (b : Byte) (s : State) :
    (s.unpackByte b).upAcc.toNat < 2 ^ (s.unpackByte b).upN.bits := by
  cases h : s.upN with
  | zero =>
    rw [unpackByte_at_zero h]
    exact b.isLt
  | eight =>
    rw [unpackByte_at_eight h, BitVec.toNat_setWidth_of_le (by decide)]
    exact BitVec.isLt _
  | four =>
    rw [unpackByte_at_four h]
    exact Nat.one_pos

/-! ## The general offset tracking -/

/-- Whole words and fewer than 12 bits more are what the general form emits and keeps. -/
theorem generalUnpack_eq {held rest : List Bool} {b : Byte} {ws : List Word}
    (hbits : ws.flatMap bitsOf ++ rest = held ++ bitsOf b) (hrest : rest.length < 12) :
    generalUnpack held b = (ws, rest) := by
  have hlen : 12 * ((ws.flatMap bitsOf ++ rest).length / 12) = (ws.flatMap bitsOf).length := by
    rw [List.length_append, length_flatMap_bitsOf]
    omega
  rw [generalUnpack, ← hbits]
  simp only [wordsOfBits_append ws hrest, hlen, List.drop_left]

theorem length_upHeld_lt (s : State) : s.upHeld.length < 12 := by
  rw [length_upHeld]
  exact Nat.lt_of_le_of_lt (UpN.bits_le _) (by decide)

/-- Settles O27. -/
theorem unpackerIsGeneralOffsetTracking : Obligations.UnpackerIsGeneralOffsetTracking := by
  intro b s hactive
  obtain ⟨ws, hresult, hbits, -⟩ := unpackByte_bits b s
  refine ⟨_, exec_upByte_active hactive b, ?_⟩
  rw [generalUnpack_eq hbits (length_upHeld_lt _)]
  exact ⟨hresult, rfl, (length_upHeld _).symm, unpackByte_upAcc_lt b s, length_upHeld_lt _⟩

/-! ## A whole stream -/

/-- The rest of an open stream that accepts `bs` and ends. -/
def unpackRest (bs : List Byte) : List Instr := bs.map .upByte ++ [.upEnd]

/-- The stream of `bs` is UP_START, then the rest. -/
theorem runCommands_unpackCommands (bs : List Byte) (s : State) :
    runCommands (unpackCommands bs) s =
      (runCommands (unpackRest bs) (s.openUnpacker.complete .none)).map (fun p => (.completed .none :: p.1, p.2)) :=
  runCommands_cons (exec_upStart s) _

theorem runCommands_unpackRest_nil {s : State} (hactive : s.upPhase = .active) :
    runCommands (unpackRest []) s = some ([.completed .none], s.endUnpacker) :=
  runCommands_cons (exec_upEnd_active hactive) []

theorem runCommands_unpackRest_cons {s : State} (hactive : s.upPhase = .active) (b : Byte) (bs : List Byte) :
    runCommands (unpackRest (b :: bs)) s =
      (runCommands (unpackRest bs) (s.unpackByte b)).map (fun p => ((s.unpackByte b).result :: p.1, p.2)) :=
  runCommands_cons (exec_upByte_active hactive b) _

/-- With `held` bits held before, each of the words `ws` is the one word of the result that brings its last bit
(R126). -/
def EmittedEarliest (held : Nat) (ws : List Word) (rs : List CommandResult) : Prop :=
  ∀ j w, ws[j]? = some w → (rs[(12 * j + 11 - held) / 8]?).map CommandResult.wordsOut = some [dec w]

/-- A byte in front: the word it completes, if any, had its last bit there, and the later words count from the bits
held after it. -/
theorem EmittedEarliest.cons {held held' : Nat} {made ws : List Word} {r : CommandResult} {rs : List CommandResult}
    (h : EmittedEarliest held' ws rs) (hr : r.wordsOut = made.map dec)
    (hbits : 12 * made.length + held' = held + 8) (hle : held ≤ 8) (hle' : held' ≤ 8) :
    EmittedEarliest held (made ++ ws) (r :: rs) := by
  intro j w hw
  by_cases hj : j < made.length
  · obtain ⟨v, rfl⟩ := List.length_eq_one_iff.mp (show made.length = 1 by omega)
    rw [List.length_singleton] at hj hbits
    obtain rfl : j = 0 := by omega
    obtain rfl : v = w := Option.some.inj hw
    have hnow : (12 * 0 + 11 - held) / 8 = 0 := by omega
    rw [hnow, List.getElem?_cons_zero, Option.map_some, hr, List.map_singleton]
  · have hlater : (12 * j + 11 - held) / 8 = (12 * (j - made.length) + 11 - held') / 8 + 1 := by omega
    rw [List.getElem?_append_right (Nat.le_of_not_lt hj)] at hw
    rw [hlater, List.getElem?_cons_succ, h _ w hw]

/-- How an open stream at `s` has ended at `t` when it accepted the bytes `bs` more, with the results `rs`, and emitted
the words `ws` more: the words are all that the held bits and the bytes' bits hold, each emitted as early as can be,
and the counters have counted them. -/
structure UnpackStreamEnds (s : State) (bs : List Byte) (ws : List Word) (rs : List CommandResult) (t : State) :
    Prop where
  ended : t.unpackingEnded
  bits : ∃ rest, rest.length < 12 ∧ s.upHeld ++ bitStream bs = ws.flatMap bitsOf ++ rest
  output : unpackOutput rs = ws.map dec
  emitted : EmittedEarliest s.upN.bits ws rs
  last : rs.getLast? = some (.completed .none)
  cnt : t.upCnt = s.upCnt + ws.length
  nbytes : t.upNbytes = s.upNbytes + bs.length
  refused : t.refused = s.refused

theorem unpackStreamEnds_end (s : State) : UnpackStreamEnds s [] [] [.completed .none] s.endUnpacker where
  ended := s.endUnpacker_upPhase
  bits := ⟨s.upHeld, length_upHeld_lt s, List.append_nil _⟩
  output := rfl
  emitted := nofun
  last := rfl
  cnt := rfl
  nbytes := rfl
  refused := rfl

/-- A byte in front adds the words it completes: `hresult`, `hbits` and `hcnt` are what `unpackByte_bits` gives. -/
theorem UnpackStreamEnds.of_unpackByte {s t : State} {b : Byte} {bs : List Byte} {made ws : List Word}
    {rs : List CommandResult} (h : UnpackStreamEnds (s.unpackByte b) bs ws rs t)
    (hresult : (s.unpackByte b).result = .completed (.words (made.map dec)))
    (hbits : made.flatMap bitsOf ++ (s.unpackByte b).upHeld = s.upHeld ++ bitsOf b)
    (hcnt : (s.unpackByte b).upCnt = s.upCnt + made.length) :
    UnpackStreamEnds s (b :: bs) (made ++ ws) ((s.unpackByte b).result :: rs) t where
  ended := h.ended
  bits := by
    obtain ⟨rest, hrest, hws⟩ := h.bits
    refine ⟨rest, hrest, ?_⟩
    rw [bitStream, List.flatMap_cons, ← List.append_assoc, ← hbits, List.append_assoc, ← bitStream, hws,
      List.flatMap_append, List.append_assoc]
  output := by
    rw [unpackOutput_cons, h.output, hresult, List.map_append]
    rfl
  emitted := by
    refine h.emitted.cons (by rw [hresult]; rfl) ?_ (UpN.bits_le _) (UpN.bits_le _)
    rw [← length_flatMap_bitsOf, ← length_upHeld, ← List.length_append, hbits, List.length_append, length_upHeld,
      length_bitsOf]
  last := by
    rw [List.getLast?_cons, h.last]
    rfl
  cnt := by rw [h.cnt, hcnt, List.length_append, Nat.add_assoc]
  nbytes := by rw [h.nbytes, State.unpackByte_upNbytes, List.length_cons, Nat.add_assoc, Nat.add_comm 1]
  refused := h.refused.trans (s.unpackByte_refused b)

theorem runCommands_unpackRest (bs : List Byte) {s : State} (hactive : s.upPhase = .active) :
    ∃ ws rs t, runCommands (unpackRest bs) s = some (rs, t) ∧ UnpackStreamEnds s bs ws rs t := by
  induction bs generalizing s with
  | nil => exact ⟨[], _, _, runCommands_unpackRest_nil hactive, unpackStreamEnds_end s⟩
  | cons b bs ih =>
    obtain ⟨ws, rs, t, hrun, hends⟩ := ih ((s.unpackByte_upPhase b).trans hactive)
    obtain ⟨made, hresult, hbits, hcnt⟩ := unpackByte_bits b s
    exact ⟨made ++ ws, _, t, by rw [runCommands_unpackRest_cons hactive, hrun, Option.map_some],
      hends.of_unpackByte hresult hbits hcnt⟩

/-- An unpacking stream ends with the decoded stream's words. -/
theorem runCommands_unpackCommands_ends (bs : List Byte) (s : State) :
    ∃ ws rs t, runCommands (unpackCommands bs) s = some (.completed .none :: rs, t) ∧
      decodeStream bs = ws.map dec ∧ UnpackStreamEnds (s.openUnpacker.complete .none) bs ws rs t := by
  obtain ⟨ws, rs, t, hrun, hends⟩ := runCommands_unpackRest bs (s := s.openUnpacker.complete .none) rfl
  obtain ⟨rest, hrest, hbits⟩ := hends.bits
  rw [upHeld_at_zero rfl, List.nil_append] at hbits
  exact ⟨ws, rs, t, by rw [runCommands_unpackCommands, hrun, Option.map_some], decodeStream_eq hbits hrest, hends⟩

/-- Settles O32. -/
theorem unpackingAgreesWithSource : Obligations.UnpackingAgreesWithSource := by
  intro bs s
  obtain ⟨ws, rs, t, hrun, hdecode, hends⟩ := runCommands_unpackCommands_ends bs s
  exact ⟨_, t, hrun, hends.output.trans hdecode.symm, hends.ended, hends.refused⟩

/-- Settles O34: the words are those of the decoded stream (R120), and a fresh stream counts from 0. -/
theorem unpackedCount : Obligations.UnpackedCount := by
  intro bs s
  obtain ⟨ws, rs, t, hrun, hdecode, hends⟩ := runCommands_unpackCommands_ends bs s
  have hlen : ws.length = 8 * bs.length / 12 := by
    rw [← (decodeStreamWords bs).1, hdecode, List.length_map]
  refine ⟨_, t, hrun, ?_, by split_ifs <;> omega, ?_, ?_⟩
  · rw [unpackOutput_cons, hends.output, ← hlen, ← List.length_map (as := ws) dec]
    rfl
  · exact hends.cnt.trans ((Nat.zero_add _).trans hlen)
  · exact hends.nbytes.trans (Nat.zero_add _)

/-- Settles O35: a fresh stream holds no bit, and UP_START's result is the first. -/
theorem wordsEmittedEarliest : Obligations.WordsEmittedEarliest := by
  intro bs s
  obtain ⟨ws, rs, t, hrun, hdecode, hends⟩ := runCommands_unpackCommands_ends bs s
  refine ⟨_, t, hrun, fun j d hd => ?_, ?_⟩
  · rw [hdecode, List.getElem?_map] at hd
    obtain ⟨w, hw, rfl⟩ := Option.map_eq_some_iff.mp hd
    exact hends.emitted j w hw
  · rw [List.getLast?_cons, hends.last]
    rfl

end Sys2Proof.Machine
end

section
/-! SUPPORT. Packing and unpacking in turn (42_stream_unpacker.md R129, R130): what comes back, in either order. -/

namespace Sys2Proof.Machine

open Sys2Proof Host

/-! ## Words to bytes and back -/

/-- The pad is too short for a word. -/
theorem decodeStream_encodeWords (ws : List Word) : decodeStream (encodeWords ws) = ws.map dec := by
  refine decodeStream_eq (bitStream_encodeWords ws) ?_
  rw [List.length_replicate, padBits_eq]
  split <;> decide

/-- Settles O36: the packed bytes are the encoded words (R116), and the unpacked words the decoded bytes (R131). -/
theorem streamRoundTrip : Obligations.StreamRoundTrip := by
  refine ⟨decodeStream_encodeWords, fun ns s => ?_⟩
  obtain ⟨rs, t, hpack, hbytes, -⟩ := packingAgreesWithSource ns s
  obtain ⟨rs', u, hunpack, hwords, -⟩ := unpackingAgreesWithSource (packOutput rs) t
  exact ⟨rs, t, rs', u, hpack, hunpack, by rw [hwords, hbytes, encodeStream, decodeStream_encodeWords]⟩

/-! ## Bytes to words and back -/

/-- A decoded word's node is packed as the word again. -/
theorem wordsOfNodes_nodeOfDecoded (ws : List Word) : wordsOfNodes ((ws.map dec).map nodeOfDecoded) = ws := by
  induction ws with
  | nil => rfl
  | cons w ws ih => exact congrArg₂ List.cons (enc_fields w) ih

/-- Bytes whose bits are the words' bits, filled up with fewer than 8 zero bits, are the encoded words. -/
theorem encodeWords_eq {ws : List Word} {bs : List Byte} {pad : Nat} (hpad : pad < 8)
    (hbits : bitStream bs = ws.flatMap bitsOf ++ List.replicate pad false) : encodeWords ws = bs := by
  have hlen := length_of_bitStream_eq hbits
  have hpadBits : padBits ws.length = pad := by
    rw [List.length_replicate] at hlen
    unfold padBits
    omega
  rw [encodeWords, hpadBits, ← hbits, bytesOfBits_bitStream]

theorem append_nibbles (b : Byte) : b.extractLsb' 4 4 ++ b.extractLsb' 0 4 = b := by
  rw [BitVec.extractLsb'_append_extractLsb'_eq_extractLsb' (Nat.zero_add 4).symm, BitVec.extractLsb'_eq_self]

/-- The mask keeps the high nibble and clears the low one. -/
theorem and_0xF0_eq_append (b : Byte) : b &&& 0xF0 = b.extractLsb' 4 4 ++ 0#4 :=
  calc b &&& 0xF0
      = (b.extractLsb' 4 4 ++ b.extractLsb' 0 4) &&& (BitVec.allOnes 4 ++ 0#4) := by rw [append_nibbles]; rfl
    _ = b.extractLsb' 4 4 ++ 0#4 := by rw [BitVec.and_append, BitVec.and_allOnes, BitVec.and_zero]

theorem and_0xF0_eq_self_iff (b : Byte) : b &&& 0xF0 = b ↔ b.extractLsb' 0 4 = 0 := by
  rw [and_0xF0_eq_append]
  nth_rw 2 [← append_nibbles b]
  rw [BitVec.append_right_inj, eq_comm]
  rfl

section Again

variable {bs front : List Byte} {b : Byte} {ws : List Word} {rest : List Bool}

/-- The 8 bits left over of a byte sequence are its last byte, which is lost. -/
theorem encodeWords_of_rest_eight (hbits : bitStream (front ++ [b]) = ws.flatMap bitsOf ++ rest)
    (hrest : rest.length = 8) : encodeWords ws = front := by
  rw [bitStream_append] at hbits
  have hfront := List.append_inj_left' hbits (by rw [hrest]; rfl)
  exact encodeWords_eq (pad := 0) (by decide) (by rw [hfront, List.replicate_zero, List.append_nil])

/-- The 4 bits left over of a byte sequence are its last byte's low nibble, which the pad replaces. -/
theorem encodeWords_of_rest_four (hbits : bitStream (front ++ [b]) = ws.flatMap bitsOf ++ rest)
    (hrest : rest.length = 4) : encodeWords ws = front ++ [b &&& 0xF0] := by
  have hlast (c : Byte) : bitStream (front ++ [c]) = bitStream front ++ bitsOf c := by
    rw [bitStream_append, bitStream, bitStream, List.flatMap_singleton]
  rw [hlast, bitsOf_cut b (m := 4) (n := 4) rfl, ← List.append_assoc] at hbits
  have hwords := List.append_inj_left' hbits (by rw [hrest, length_bitsOf])
  refine encodeWords_eq (pad := 4) (by decide) ?_
  rw [hlast, and_0xF0_eq_append, bitsOf_nibbles, ← List.append_assoc, hwords]
  rfl

end Again

/-- Settles O37: the bits left over after the whole words are 0, 8 or 4 as the length is 0, 1 or 2 modulo 3. -/
theorem reverseRoundTrip : Obligations.ReverseRoundTrip := by
  intro bs
  obtain ⟨ws, rest, hbits, hrest⟩ := exists_groups (n := 12) (by decide) (bitStream bs)
  have hlen := length_of_bitStream_eq hbits
  simp only [decodeStream_eq hbits hrest, encodeStream, wordsOfNodes_nodeOfDecoded]
  refine ⟨fun hzero => ?_, fun hone => ?_, fun front b hlast htwo => ?_⟩
  · obtain rfl : rest = [] := List.length_eq_zero_iff.mp (by omega)
    exact encodeWords_eq (pad := 0) (by decide) hbits
  · have hne : bs ≠ [] := by rintro rfl; cases hone
    obtain ⟨front, b, rfl⟩ := (List.eq_nil_or_concat' bs).resolve_left hne
    rw [encodeWords_of_rest_eight hbits (by omega), List.dropLast_concat]
    exact ⟨rfl, by simp⟩
  · subst hlast
    rw [encodeWords_of_rest_four hbits (by omega)]
    refine ⟨rfl, ?_⟩
    rw [List.append_right_inj, List.singleton_inj, and_0xF0_eq_self_iff]

end Sys2Proof.Machine
end

section
/-! SUPPORT. The outcome of a command (60_exceptions.md R132 to R135): the step on an empty list, on RESET and in a state
that has recorded a fault, the refusal or response of an instruction, and that a run without faults never stops. -/

namespace Sys2Proof.Machine

open Sys2Proof Host

/-! ## The arms of the step that run no instruction

With `step_of_decoded` and `step_of_reserved` these are all of its arms. -/

theorem step_of_empty {s : State} (hin : s.input = []) (hfaults : s.faults = []) : step s = .next s.idleStep := by
  have hstuck : s.stuck = false := s.stuck_eq_false_iff.mpr hfaults
  simp [step, fetch_of_empty hin, hstuck]

theorem step_of_rst {s : State} {q : Request} {rest : List Request} (hin : s.input = q :: rest)
    (hrst : q.rst = true) : step s = .next (State.applyReset { s with input := rest }) := by
  simp [step, fetch_of_issued hin, hrst]

/-- A state that has recorded a fault faults, unless the next request asserts RESET. -/
theorem step_of_stuck {s : State} (hstuck : s.stuck = true) (hrst : ∀ q ∈ s.input.head?, q.rst = false) :
    step s = .fault .internalConsistency := by
  rcases hin : s.input with _ | ⟨q, rest⟩
  · simp [step, fetch_of_empty hin, hstuck]
  · have hq : q.rst = false := hrst q (by simp [hin])
    simp [step, fetch_of_issued hin, hq, hstuck]

/-- Settles O41. -/
theorem idleWithoutRequest : Obligations.IdleWithoutRequest :=
  fun _ hin hfaults => step_of_empty hin hfaults

/-! ## A state that has recorded a fault -/

theorem stuck_of_mem_faults {f : Fault} {s : State} (h : f ∈ s.faults) : s.stuck = true := by
  simp [State.stuck, List.ne_nil_of_mem h]

theorem mem_faults_recordFault (f : Fault) (s : State) : f ∈ (s.recordFault f).faults := by
  rw [State.recordFault_faults]
  split_ifs with h
  · exact h
  · exact List.mem_cons_self

/-- Settles O50: neither issuing a request nor RESET takes the fault out of `faults`. -/
theorem faultedBlockIsStuck : Obligations.FaultedBlockIsStuck := by
  intro f s
  have hmem : f ∈ (s.recordFault f).faults := mem_faults_recordFault f s
  refine ⟨hmem, rfl, rfl, rfl, fun q hrst => ?_, fun q hrst => ⟨_, step_issueNext_of_rst hrst _, fun hin => ?_⟩⟩
  · exact step_of_stuck (stuck_of_mem_faults (s := (s.recordFault f).issueNext q) hmem) (by simp [hrst])
  · exact step_of_stuck (stuck_of_mem_faults (s := (s.recordFault f).applyReset) hmem) (by rw [hin]; nofun)

/-! ## No run stops -/

theorem step_next_of_noFault {s : State} (hfaults : s.faults = []) : ∃ t, step s = .next t := by
  rcases hin : s.input with _ | ⟨q, rest⟩
  · exact ⟨_, step_of_empty hin hfaults⟩
  · cases hrst : q.rst with
    | true => exact ⟨_, step_of_rst hin hrst⟩
    | false =>
      rcases hdec : decode q with ⟨⟨c⟩⟩ | i
      · exact ⟨_, step_of_reserved hin hrst hfaults hdec⟩
      · rw [step_of_decoded hin hrst hfaults hdec]
        exact exec_next i _

theorem inv_issue {s : State} (q : Request) (h : s.Inv) : (s.issue q).Inv := by
  obtain ⟨hpk, hup, hnofault⟩ := h
  exact ⟨(packerInv_congr rfl).mpr hpk, (unpackerInv_congr rfl).mpr hup, hnofault⟩

theorem Reachable.inv {s : State} (h : Reachable s) : s.Inv := by
  induction h with
  | launch => exact invariantAtLaunch
  | step _ hstep ih => exact invariantKept _ _ ih hstep
  | issue q _ ih => exact inv_issue q ih

/-- Settles O46: the invariant holds in every reachable state, and it says that no fault is recorded. -/
theorem reachableStatesGoOn : Obligations.ReachableStatesGoOn := by
  intro s hs
  obtain ⟨hpk, hup, hnofault⟩ := hs.inv
  exact ⟨⟨hpk, hup, hnofault⟩, step_next_of_noFault hnofault⟩

/-! ## Refused or completed -/

theorem flushPacker_completed (s : State) : ∃ r, s.flushPacker.result = .completed r := by
  cases h : s.pkOfs with
  | zero => exact ⟨_, by rw [flushPacker_at_zero h]⟩
  | four => exact ⟨_, by rw [flushPacker_at_four h]⟩

theorem PackerMove.result_cases {s t : State} {i : Instr} (h : PackerMove s i t) :
    (∃ r, t.result = .completed r) ∨ (s.wrongPhase i ∧ t = s.refuse .noOpenStream) := by
  cases h with
  | start => exact .inl ⟨_, State.complete_result _ _⟩
  | word c a k => exact .inl ⟨_, packWord_result _ s⟩
  | comment => exact .inl ⟨_, State.complete_result _ _⟩
  | flush => exact .inl (flushPacker_completed s)
  | refuse hneeds hclosed => exact .inr ⟨.inl ⟨hneeds, hclosed⟩, rfl⟩

theorem UnpackerMove.result_cases {s t : State} {i : Instr} (h : UnpackerMove s i t) :
    (∃ r, t.result = .completed r) ∨ (s.wrongPhase i ∧ t = s.refuse .noOpenStream) := by
  cases h with
  | start => exact .inl ⟨_, State.complete_result _ _⟩
  | byte b =>
    obtain ⟨ws, hresult, -⟩ := unpackByte_bits b s
    exact .inl ⟨_, hresult⟩
  | stop => exact .inl ⟨_, State.endUnpacker_result s⟩
  | refuse hneeds hclosed => exact .inr ⟨.inr ⟨hneeds, hclosed⟩, rfl⟩

/-- An instruction completes with a response, or is refused for want of the open stream it needs. -/
theorem exec_result_cases {s t : State} {i : Instr} (h : exec i s = .next t) :
    (∃ r, t.result = .completed r) ∨ (s.wrongPhase i ∧ t = s.refuse .noOpenStream) := by
  rcases exec_inversion h with ⟨r, rfl, -⟩ | hmove | hmove
  · exact .inl ⟨r, State.complete_result _ _⟩
  · exact hmove.result_cases
  · exact hmove.result_cases

theorem exec_of_wrongPhase {s : State} {i : Instr} (h : s.wrongPhase i) :
    exec i s = .next (s.refuse .noOpenStream) := by
  rcases h with ⟨hneeds, hclosed⟩ | ⟨hneeds, hclosed⟩
  · exact exec_packing_closed hneeds hclosed
  · exact exec_unpacking_closed hneeds hclosed

/-- The second and the third outcome of R133, told apart by the phase. -/
theorem exec_outcome (i : Instr) (s : State) :
    ∃ t, exec i s = .next t ∧ (s.wrongPhase i → t.result = .refused .noOpenStream) ∧
      (¬ s.wrongPhase i → ∃ r, t.result = .completed r) := by
  by_cases hphase : s.wrongPhase i
  · exact ⟨_, exec_of_wrongPhase hphase, fun _ => rfl, fun hnot => absurd hphase hnot⟩
  · obtain ⟨t, hexec⟩ := exec_next i s
    exact ⟨t, hexec, fun hwrong => absurd hwrong hphase,
      fun _ => (exec_result_cases hexec).resolve_right fun ⟨hwrong, _⟩ => hphase hwrong⟩

/-- Settles O47: the three arms of R133, in its order. -/
theorem outcomeOfCommand : Obligations.OutcomeOfCommand := by
  intro s q rest hin hrst hfaults
  rcases hdec : decode q with ⟨⟨c⟩⟩ | i
  · exact ⟨_, step_of_reserved hin hrst hfaults hdec, fun _ => rfl, nofun⟩
  · obtain ⟨t, hexec, hrefused, hcompleted⟩ := exec_outcome i { s with input := rest }
    refine ⟨t, (step_of_decoded hin hrst hfaults hdec).trans hexec, nofun, fun j hj => ?_⟩
    obtain rfl : i = j := Except.ok.inj hj
    exact ⟨hrefused, hcompleted⟩

/-! ## What a refusal leaves -/

/-- A step with a refused result does no more than take its request and refuse it. -/
theorem step_eq_refuse {s t : State} {why : RefuseReason} (h : step s = .next t)
    (hwhy : t.result = .refused why) :
    ∃ q rest, s.input = q :: rest ∧ s.faults = [] ∧ t = State.refuse why { s with input := rest } := by
  rcases step_cases h with ⟨-, -, rfl⟩ | ⟨q, rest, hin, ⟨-, rfl⟩ | ⟨-, hstuck, i, -, hexec⟩ | ⟨-, hstuck, -, rfl⟩⟩
  · cases hwhy
  · cases hwhy
  · refine ⟨q, rest, hin, s.stuck_eq_false_iff.mp hstuck, ?_⟩
    rcases exec_result_cases hexec with ⟨r, hr⟩ | ⟨-, rfl⟩
    · exact absurd (hr.symm.trans hwhy) nofun
    · cases hwhy
      rfl
  · cases hwhy
    exact ⟨q, rest, hin, s.stuck_eq_false_iff.mp hstuck, rfl⟩

/-- Settles O48: the refusal leaves no fault recorded, so the next step answers. -/
theorem refusalChangesNothing : Obligations.RefusalChangesNothing := by
  intro s t why h hwhy
  obtain ⟨q, rest, hin, hfaults, rfl⟩ := step_eq_refuse h hwhy
  exact ⟨rfl, rfl, rfl, rfl, by simp [hin], step_next_of_noFault hfaults⟩

end Sys2Proof.Machine
end

section
/-! SUPPORT. RESET and the launch state (70_reset_and_hazards.md R146, R147). -/

namespace Sys2Proof.Machine

open Sys2Proof

/-- Settles O42: `step` reads `rst` before it reads `faults` or decodes the command, so it takes the RESET arm and
no other; the state written out in the statement is `applyReset` of the state without the request. -/
theorem resetStep : Obligations.ResetStep := by
  intro s p rest hin hrst
  exact step_of_rst (q := .ports p) hin hrst

/-- Settles O43: the three groups are read off the definition of `State.reset`. -/
theorem launchState : Obligations.LaunchState :=
  ⟨rfl, rfl, rfl⟩

end Sys2Proof.Machine
end

section
/-! SUPPORT. Encodings (30_encoding.md R49 to R54, R78 to R82): decoding undoes encoding, and a number that the model's
layout reads as a word or as a command decodes to the row it stands for. -/

namespace Sys2Proof.Machine

open Sys2Proof Host

/-! ## Decoding an encoding -/

/-- Settles O13 by `decode_encode`. The premise excludes nothing: the operands have their fields' exact widths. -/
theorem decodeOfEncode : Obligations.DecodeOfEncode :=
  fun i _ => decode_encode i

/-! ## Numbers as requests (the model's layout) -/

/-- A number of 16 bits that holds a word asks for that word. -/
theorem tableRequest_word (v : Word) : tableRequest 16 v.toNat = .ofWord v := by
  have hlt : v.toNat < 2 ^ 12 := v.isLt
  calc tableRequest 16 v.toNat = .word (BitVec.ofNat 32 (v.toNat % 2 ^ 16)) := rfl
    _ = .word (BitVec.ofNat 32 v.toNat) := by rw [Nat.mod_eq_of_lt (by omega)]
    _ = .ofWord v := by rw [BitVec.ofNat_toNat, Request.ofWord]

/-- A number of 8 bits that holds a command code asks for that command, with its operand inputs 0. -/
theorem tableRequest_command (c : BitVec 4) : tableRequest 8 c.toNat = .ports { Ports.zero with cmd := c } := by
  revert c
  decide

theorem decodeTableWord_enc (o : Opcode) (a : Addr) (k : CtrlCode) :
    decodeTableWord 16 (enc o.code a k).toNat = some (wordRow o a k) := by
  rw [decodeTableWord, tableRequest_word, decode_ofWord, decodeWord_enc]

theorem decodeTableWord_of_encode {c : BitVec 4} {i : Instr} (h : encode i = .ports { Ports.zero with cmd := c }) :
    decodeTableWord 8 c.toNat = some i := by
  rw [decodeTableWord, tableRequest_command, ← h, decode_encode]

theorem decodeTableWord_reserved {c : BitVec 4} (h : ReservedCode c) : decodeTableWord 8 c.toNat = none := by
  rw [decodeTableWord, tableRequest_command, decode_reserved h]

/-- Settles O17: each written-out word is the encoding of its fields, each command code that of the command with its
operands 0, and the last two codes are reserved. -/
theorem writtenWordsDecode : Obligations.WrittenWordsDecode :=
  ⟨decodeTableWord_enc .nop0 0b111111 0b01, decodeTableWord_enc .one 0b111111 0b00,
    decodeTableWord_enc .stoc 0b101000 0b00, decodeTableWord_enc .nopf 0b111111 0b11,
    decodeTableWord_of_encode (c := 0b0001) rfl, decodeTableWord_of_encode (c := 0b0101) rfl,
    decodeTableWord_of_encode (c := 0b1010) rfl,
    decodeTableWord_reserved (c := 0b0000) (.inl rfl), decodeTableWord_reserved (c := 0b1011) (.inr (by decide))⟩

/-! ## The codec's pass over a word row -/

/-- Every word row takes the same step: the codec's pass over the word with the row's code. -/
theorem exec_wordRow (o : Opcode) (a : Addr) (k : CtrlCode) (s : State) :
    exec (wordRow o a k) s = .next (s.codecPass o.code a k) := by
  cases o <;> rfl

/-- The encoder's output is the fields laid end to end, and the decoder gives the fields back with the class. -/
theorem State.codecPass_eq (i : InstCode) (a : Addr) (k : CtrlCode) (s : State) :
    s.codecPass i a k =
      { s with result := .completed (.codec ((i ++ a ++ k : BitVec 12).setWidth 32)
          { inst := i, addr := a, ctrl := k, aclass := classify a }) } := by
  rw [State.codecPass, State.complete, encOutput, dec_enc, enc_eq_append]

/-- `exec_wordRow` with the next state written out. -/
theorem exec_wordRow_eq (o : Opcode) (a : Addr) (k : CtrlCode) (s : State) :
    exec (wordRow o a k) s =
      .next { s with result := .completed (.codec ((o.code ++ a ++ k : BitVec 12).setWidth 32)
        { inst := o.code, addr := a, ctrl := k, aclass := classify a }) } := by
  rw [exec_wordRow, State.codecPass_eq]

/-- Settles O4: the step of every row, at the 16 codes. -/
theorem wordRowsPassTheCodec : Obligations.WordRowsPassTheCodec :=
  fun a k s =>
    ⟨exec_wordRow_eq .nop0 a k s, exec_wordRow_eq .ld a k s, exec_wordRow_eq .add a k s,
      exec_wordRow_eq .sub a k s, exec_wordRow_eq .one a k s, exec_wordRow_eq .nand a k s,
      exec_wordRow_eq .or a k s, exec_wordRow_eq .xor a k s, exec_wordRow_eq .sto a k s,
      exec_wordRow_eq .stoc a k s, exec_wordRow_eq .ien a k s, exec_wordRow_eq .oen a k s,
      exec_wordRow_eq .ioc a k s, exec_wordRow_eq .rtn a k s, exec_wordRow_eq .skz a k s,
      exec_wordRow_eq .nopf a k s⟩

end Sys2Proof.Machine
end
